-- ==== Sys2Proof/Word.lean ====
section
/-! DEFINITION. The word types of the spec (00_scope.md R11) and the canonical cell lists that hold its buffers. -/

namespace Sys2Proof

/-- `u8` of R11. -/
abbrev Byte := BitVec 8

/-- `u1` of R11. -/
abbrev U1 := BitVec 1

/-- `s32` of R11, two's complement. -/
abbrev S32 := BitVec 32

/-- Values by key. An unlisted key reads as a value that the space's accessor fixes. -/
abbrev Memory (α : Type) := List (Nat × α)

/-- Bytes by key, as the host's interface spells a cell. -/
abbrev ByteMemory := List Host.Cell

end Sys2Proof
end

