-- ==== Sys2Proof/Config.lean ====
section
/-! DEFINITION. What the spec leaves to the implementation or the environment: the parameters of 00_scope.md R7
and R8, and the free values that nothing in Lean can evaluate. -/

namespace Sys2Proof.Config

/-! ### Parameters the source fixes (R7) -/

/-- `COLS`, logical columns. -/
def cols : Nat := 17

/-- `ROWS`, logical rows. -/
def rows : Nat := 7

/-- `CELLS`, cells of the logical frame. -/
def cells : Nat := 119

/-- `PBUF_LEN`, bytes of one physical colour buffer. -/
def pbufLen : Nat := 144

/-- `WINDOW_WIDTH`, the visible window of the scroll sequencer. -/
def windowWidth : S32 := 17

/-- `NUM_FRAME_BANKS`. -/
def numFrameBanks : Nat := 2

/-- `ENABLE_MASK_LEN`, bytes written as enable mask per frame bank. -/
def enableMaskLen : Nat := 17

/-- `ENABLE_MASK_BYTE`. -/
def enableMaskByte : Byte := 0xFF

/-- `RESET_SETTLE_MS`. -/
def resetSettleMs : Nat := 10

/-- `FRAME_INTERVAL_MS`. -/
def frameIntervalMs : Nat := 100

/-- `SHUTDOWN_OFF_VALUE`, the first value written to the shutdown register. -/
def shutdownOffValue : Byte := 0x00

/-- `SHUTDOWN_ON_VALUE`, the second value written to the shutdown register. -/
def shutdownOnValue : Byte := 0x01

/-- `AUDIO_SYNC_OFF_VALUE`. -/
def audioSyncOffValue : Byte := 0x00

/-- `SUCCESS_EXIT_CODE`. -/
def successExitCode : Int := 0

/-! ### Parameters the model takes as an argument (R8) -/

/-- What a transport call returns (40_bus_adapter.md R121). -/
inductive Answer where
  | ok
  | err
  | hang
  deriving DecidableEq, Repr, Inhabited

/-- A prescribed glyph: its advance width, and for each of its columns the seven cells from row 0 down.
`none`, or a cell the lists do not reach, is a cell the glyph leaves alone (43_scroll_sequencer.md R184). -/
structure Glyph where
  width   : Nat
  columns : List (List (Option Byte))
  deriving DecidableEq, Repr

/-- The open parameters of R8, and the glyphs whose drawing is prescribed as data (log 7). -/
structure Params where
  bankRegister      : Byte
  configBank        : Byte
  modeRegister      : Byte
  frameRegister     : Byte
  audioSyncRegister : Byte
  shutdownRegister  : Byte
  pictureMode       : Byte
  enableBase        : Byte
  enableRegCount    : Nat
  colorBase         : Byte
  deviceAddress     : Nat
  devicePath        : String
  displayText       : List Char
  failExitCode      : Int
  font              : List (Char × Glyph)
  deriving DecidableEq, Repr

/-- The suggested values of R8's default column. PRESUMED: the spec marks them as general knowledge (log 2). -/
def defaultParams : Params where
  bankRegister      := 0xFD
  configBank        := 0x0B
  modeRegister      := 0x00
  frameRegister     := 0x01
  audioSyncRegister := 0x06
  shutdownRegister  := 0x0A
  pictureMode       := 0x00
  enableBase        := 0x00
  enableRegCount    := 18
  colorBase         := 0x24
  deviceAddress     := 0x74
  devicePath        := "/dev/i2c-1"
  displayText       := []
  failExitCode      := 1
  font              := []

/-! ### Free values -/

/-- The transport's answer to its `n`-th call, where none is prescribed (R121, log 5). Nothing constrains it. -/
opaque transportAnswer : Nat → Answer

/-- The advance width of a character whose glyph is not prescribed: it depends on the character alone
(43_scroll_sequencer.md R184 (a), R186, log 7). -/
opaque glyphWidth : Char → Nat

/-- The byte that drawing a character whose glyph is not prescribed writes: it may depend on the frame drawn on,
the cursor, the character and the cell (column, row) (43_scroll_sequencer.md R184, log 7). -/
opaque glyphCell : ByteMemory → Int → Char → Nat → Nat → Byte

/-- What the display shows of an LED where 10_state.md R40 says "any u8", for the `n`-th observation (log 9). -/
opaque displayDraw : Nat → Nat → Byte

end Sys2Proof.Config
end

