-- ==== Sys2Proof/Machine/AddressMap.lean ====
section
/-! DEFINITION. The device's address map (20_memory.md R62, R63, R73): which register an address of a bank names. -/

namespace Sys2Proof.Machine

open Sys2Proof.Config

/-- A register of the device that a bank-relative address can name. -/
inductive Target where
  /-- `DEV.EN[b][j]` -/
  | enable (b j : Nat)
  /-- `DEV.COL[b][i]` -/
  | color (b i : Nat)
  | mode
  | frame
  | audioSync
  | shutdown
  deriving DecidableEq, Repr

/-- The address lies in the enable area `[ENABLE_BASE, ENABLE_BASE + ENABLE_REG_COUNT)` of a frame bank (R62). -/
def inEnableArea (c : Params) (n : Nat) : Bool :=
  c.enableBase.toNat ≤ n && n < c.enableBase.toNat + c.enableRegCount

/-- The address lies in the colour area `[COLOR_BASE, COLOR_BASE + 144)` of a frame bank (R62). -/
def inColorArea (c : Params) (n : Nat) : Bool :=
  c.colorBase.toNat ≤ n && n < c.colorBase.toNat + pbufLen

/-- The address is one of the four registers of the config bank (R63). -/
def isConfigRegister (c : Params) (n : Nat) : Bool :=
  n == c.modeRegister.toNat || n == c.frameRegister.toNat || n == c.audioSyncRegister.toNat ||
    n == c.shutdownRegister.toNat

/-- The bank is a frame bank, 0 or 1 (R62). -/
def isFrameBank (s : Byte) : Bool := s == 0 || s == 1

/-- Every one of the `n` addresses from `a` on satisfies `P`: "`[A, A+n-1]` inside" of R92. -/
def span (P : Nat → Bool) (a n : Nat) : Bool := (List.range n).all fun k => P (a + k)

/-- `target(s, n)` of R66: the register that address `n` names in frame bank `s` (R62). -/
def frameTarget (c : Params) (s : Byte) (n : Nat) : Option Target :=
  if inEnableArea c n then some (.enable s.toNat (n - c.enableBase.toNat))
  else if inColorArea c n then some (.color s.toNat (n - c.colorBase.toNat))
  else none

/-- `target(s, n)` of R66 in the config bank (R63). -/
def configTarget (c : Params) (n : Nat) : Option Target :=
  if n = c.modeRegister.toNat then some .mode
  else if n = c.frameRegister.toNat then some .frame
  else if n = c.audioSyncRegister.toNat then some .audioSync
  else if n = c.shutdownRegister.toNat then some .shutdown
  else none

/-- `target(s, n)` of R66: the register address `n` names in bank `s`, `none` where it is undefined (R62, R63). -/
def target (c : Params) (s : Byte) (n : Nat) : Option Target :=
  if isFrameBank s then frameTarget c s n
  else if s = c.configBank then configTarget c n
  else none

end Sys2Proof.Machine
end

