-- ==== Sys2Proof/Syntax.lean ====
section
/-! DEFINITION. The instructions: one constructor per row of spec/opcode_table.json, in the table's order. -/

namespace Sys2Proof

/-- Host commands (30_encoding.md R95), reserved host opcodes (R96), and the classes of wire transfer that the device
decodes (R92). Operands keep the names of R93 and R90. -/
inductive Instr where
  /-- `NOP` (R131) -/
  | nop
  /-- `OPEN` (R122) -/
  | openDev
  /-- `BIND` (R123) -/
  | bindDev
  /-- `WRITE_REG a, v` (R124) -/
  | writeReg (a v : Byte)
  /-- `WRITE_BLOCK a, n, d` (R125); `n` is the length of `d` -/
  | writeBlock (a : Byte) (d : List Byte)
  /-- `SELECT_BANK b` (R126) -/
  | selectBank (b : Byte)
  /-- `WRITE_CONFIG a, v` (R127) -/
  | writeConfig (a v : Byte)
  /-- `RESET_SEQ` (R141) -/
  | resetSeq
  /-- `CONFIGURE_SEQ` (R142) -/
  | configureSeq
  /-- `ENABLE_SEQ` (R143) -/
  | enableSeq
  /-- `SETUP` (R144) -/
  | setup
  /-- `LOAD_FRAME f` (R168), cell (x, y) at `17*y + x` -/
  | loadFrame (f : List Byte)
  /-- `MAP` (R169) -/
  | map
  /-- `PRESENT` (R188) -/
  | present
  /-- `SCROLL_INIT` (R181) -/
  | scrollInit
  /-- `TICK` (R189) -/
  | tick
  /-- `SCROLL` (R191) -/
  | scroll
  /-- `RUN` (R192) -/
  | run
  /-- reserved opcode 0x03 to 0x0F (R96) -/
  | reserved03 (op : Byte)
  /-- reserved opcode 0x14 to 0x1F (R96) -/
  | reserved14 (op : Byte)
  /-- reserved opcode 0x24 to 0x2F (R96) -/
  | reserved24 (op : Byte)
  /-- reserved opcode 0x33 to 0x3F (R96) -/
  | reserved33 (op : Byte)
  /-- reserved opcode 0x44 to 0xFF (R96) -/
  | reserved44 (op : Byte)
  /-- wire class `XBANK` (R92): address byte and the one payload byte -/
  | xbank (a v : Byte)
  /-- wire class `XMODE` (R92) -/
  | xmode (a v : Byte)
  /-- wire class `XFRAME` (R92) -/
  | xframe (a v : Byte)
  /-- wire class `XAUDIO` (R92) -/
  | xaudio (a v : Byte)
  /-- wire class `XSHUT` (R92) -/
  | xshut (a v : Byte)
  /-- wire class `XEN` (R92): address byte and payload -/
  | xen (a : Byte) (p : List Byte)
  /-- wire class `XCOL` (R92) -/
  | xcol (a : Byte) (p : List Byte)
  /-- wire class `XMIX` (R92) -/
  | xmix (a : Byte) (p : List Byte)
  /-- wire class `XCFGBLK` (R92) -/
  | xcfgblk (a : Byte) (p : List Byte)
  /-- wire class "reserved" (R92), `XRESERVED` of the table -/
  | xreserved (a : Byte) (p : List Byte)
  deriving DecidableEq, Repr, Inhabited

end Sys2Proof
end

