-- ==== Sys2Proof/WellFormed.lean ====
section
/-! DEFINITION. Which instruction terms stand for an encoding of the spec: operand lengths of 30_encoding.md R93 and
R97, the opcode ranges of R96, and the conditions of R92 on a wire transfer's own bytes. (R92's conditions on
`DEV.BANKSEL` are no part of a term: Decode's `selectedFor` holds them.) -/

namespace Sys2Proof

open Sys2Proof.Config Sys2Proof.Machine

/-- The term is an instruction under the parameters `c`. -/
def wellFormed (c : Params) : Instr → Bool
  | .nop | .openDev | .bindDev | .writeReg _ _ | .selectBank _ | .writeConfig _ _ => true
  | .resetSeq | .configureSeq | .enableSeq | .setup => true
  | .map | .present | .scrollInit | .tick | .scroll | .run => true
  | .writeBlock _ d => 1 ≤ d.length && d.length ≤ 255
  | .loadFrame f => f.length == cells
  | .reserved03 op => 0x03 ≤ op.toNat && op.toNat ≤ 0x0F
  | .reserved14 op => 0x14 ≤ op.toNat && op.toNat ≤ 0x1F
  | .reserved24 op => 0x24 ≤ op.toNat && op.toNat ≤ 0x2F
  | .reserved33 op => 0x33 ≤ op.toNat && op.toNat ≤ 0x3F
  | .reserved44 op => 0x44 ≤ op.toNat
  | .xbank a _ => a == c.bankRegister
  | .xmode a _ => a == c.modeRegister
  | .xframe a _ => a == c.frameRegister
  | .xaudio a _ => a == c.audioSyncRegister
  | .xshut a _ => a == c.shutdownRegister
  | .xen a p => 1 ≤ p.length && span (inEnableArea c) a.toNat p.length
  | .xcol a p => 1 ≤ p.length && span (inColorArea c) a.toNat p.length
  | .xmix a p =>
    span (fun n => inEnableArea c n || inColorArea c n) a.toNat p.length &&
      !span (inEnableArea c) a.toNat p.length && !span (inColorArea c) a.toNat p.length
  | .xcfgblk a p => 2 ≤ p.length && span (isConfigRegister c) a.toNat p.length
  | .xreserved _ p => 1 ≤ p.length

end Sys2Proof
end

