-- ==== Sys2Proof/Decode.lean ====
section
/-! DEFINITION. Decoding and encoding: host commands (30_encoding.md R93 to R97) from the host's byte stream, and wire
transfers (R90 to R92) from their bytes and the selected bank. -/

namespace Sys2Proof

open Sys2Proof.Config Sys2Proof.Machine

/-! ### Host commands -/

/-- A format of R93, with the instruction that its operand bytes make. -/
inductive Format where
  | H0 (i : Instr)
  | H1 (mk : Byte → Instr)
  | H2 (mk : Byte → Byte → Instr)
  | HB (mk : Byte → List Byte → Instr)
  | HF (mk : List Byte → Instr)

/-- The host opcode map, R95. -/
def opcodeTable : List (Byte × Format) :=
  [ (0x00, .H0 .nop), (0x01, .H0 .openDev), (0x02, .H0 .bindDev),
    (0x10, .H2 .writeReg), (0x11, .HB .writeBlock), (0x12, .H1 .selectBank), (0x13, .H2 .writeConfig),
    (0x20, .H0 .resetSeq), (0x21, .H0 .configureSeq), (0x22, .H0 .enableSeq), (0x23, .H0 .setup),
    (0x30, .HF .loadFrame), (0x31, .H0 .map), (0x32, .H0 .present),
    (0x40, .H0 .scrollInit), (0x41, .H0 .tick), (0x42, .H0 .scroll), (0x43, .H0 .run) ]

/-- The reserved row an opcode outside R95 belongs to, R96. -/
def reservedRow (op : Byte) : Instr :=
  if op.toNat ≤ 0x0F then .reserved03 op
  else if op.toNat ≤ 0x1F then .reserved14 op
  else if op.toNat ≤ 0x2F then .reserved24 op
  else if op.toNat ≤ 0x3F then .reserved33 op
  else .reserved44 op

/-- The format an opcode byte fixes (R93, R95); a reserved opcode is one byte long (the table's `length`). -/
def formatOf (op : Byte) : Format := (opcodeTable.lookup op).getD (.H0 (reservedRow op))

/-- The operands a format takes from the bytes after the opcode, and what is left; `none` where they end too soon. -/
def Format.read : Format → List Byte → Option (Instr × List Byte)
  | .H0 i, rest => some (i, rest)
  | .H1 mk, b :: rest => some (mk b, rest)
  | .H1 _, [] => none
  | .H2 mk, a :: v :: rest => some (mk a v, rest)
  | .H2 _, _ => none
  | .HB mk, a :: n :: rest =>
    if n.toNat ≤ rest.length then some (mk a (rest.take n.toNat), rest.drop n.toNat) else none
  | .HB _, _ => none
  | .HF mk, rest => if cells ≤ rest.length then some (mk (rest.take cells), rest.drop cells) else none

/-- Why the stream gives no command. -/
inductive DecodeError where
  /-- no byte is left -/
  | endOfStream
  /-- the stream ends inside a command (R97) -/
  | truncated
  deriving DecidableEq, Repr

/-- The first command of a byte stream and the rest of the stream (R93). -/
def decode : List Byte → Except DecodeError (Instr × List Byte)
  | [] => .error .endOfStream
  | op :: rest =>
    match (formatOf op).read rest with
    | some r => .ok r
    | none => .error .truncated

/-! ### Wire transfers -/

/-- R92's condition on `DEV.BANKSEL` (the other conditions of the class are `wellFormed`'s). A host command has
none. `XRESERVED` is "anything else", which `decodeWire` settles. -/
def selectedFor (c : Params) (sel : Option Byte) : Instr → Bool
  | .xmode _ _ | .xframe _ _ | .xaudio _ _ | .xshut _ _ | .xcfgblk _ _ => sel == some c.configBank
  | .xen _ _ | .xcol _ _ | .xmix _ _ => sel == some 0 || sel == some 1
  | .xbank _ _ | .xreserved _ _ => true
  | .nop | .openDev | .bindDev | .writeReg _ _ | .writeBlock _ _ | .selectBank _ | .writeConfig _ _ => true
  | .resetSeq | .configureSeq | .enableSeq | .setup | .loadFrame _ | .map | .present => true
  | .scrollInit | .tick | .scroll | .run => true
  | .reserved03 _ | .reserved14 _ | .reserved24 _ | .reserved33 _ | .reserved44 _ => true

/-- A class of R92 applies to a transfer: its bytes fit and the bank it needs is selected. -/
def classApplies (c : Params) (sel : Option Byte) (i : Instr) : Bool :=
  wellFormed c i && selectedFor c sel i

/-- The classes of R92 that a transfer of one payload byte may belong to, in the table's order. -/
def oneByteClasses (a v : Byte) : List Instr :=
  [.xbank a v, .xmode a v, .xframe a v, .xaudio a v, .xshut a v]

/-- The classes of R92 that a transfer of any length may belong to, in the table's order. -/
def blockClasses (a : Byte) (p : List Byte) : List Instr :=
  [.xen a p, .xcol a p, .xmix a p, .xcfgblk a p]

/-- The candidate classes of a transfer. -/
def wireClasses (a : Byte) (p : List Byte) : List Instr :=
  (match p with
    | [v] => oneByteClasses a v
    | _ => []) ++ blockClasses a p

/-- The class of a transfer `[a] ++ p` under the selected bank `sel`: the first row of R92 that applies, and
`XRESERVED` where none does. -/
def wireClass (c : Params) (sel : Option Byte) (a : Byte) (p : List Byte) : Instr :=
  ((wireClasses a p).find? (classApplies c sel)).getD (.xreserved a p)

/-- The device's decoding of the bytes on the wire (R90, R92); fewer than two bytes are no transfer (R65). -/
def decodeWire (c : Params) (sel : Option Byte) : List Byte → Option Instr
  | a :: v :: p => some (wireClass c sel a (v :: p))
  | _ => none

/-! ### The encoder -/

/-- The bytes of an instruction: a host command's by R93 and R95, a wire transfer's by R90. -/
def encode : Instr → List Byte
  | .nop => [0x00]
  | .openDev => [0x01]
  | .bindDev => [0x02]
  | .writeReg a v => [0x10, a, v]
  | .writeBlock a d => 0x11 :: a :: BitVec.ofNat 8 d.length :: d
  | .selectBank b => [0x12, b]
  | .writeConfig a v => [0x13, a, v]
  | .resetSeq => [0x20]
  | .configureSeq => [0x21]
  | .enableSeq => [0x22]
  | .setup => [0x23]
  | .loadFrame f => 0x30 :: f
  | .map => [0x31]
  | .present => [0x32]
  | .scrollInit => [0x40]
  | .tick => [0x41]
  | .scroll => [0x42]
  | .run => [0x43]
  | .reserved03 op => [op]
  | .reserved14 op => [op]
  | .reserved24 op => [op]
  | .reserved33 op => [op]
  | .reserved44 op => [op]
  | .xbank a v => [a, v]
  | .xmode a v => [a, v]
  | .xframe a v => [a, v]
  | .xaudio a v => [a, v]
  | .xshut a v => [a, v]
  | .xen a p => a :: p
  | .xcol a p => a :: p
  | .xmix a p => a :: p
  | .xcfgblk a p => a :: p
  | .xreserved a p => a :: p

/-- The instruction is a command of the host (R95, R96), not a class of wire transfer (R92). -/
def isHostCommand : Instr → Bool
  | .xbank _ _ | .xmode _ _ | .xframe _ _ | .xaudio _ _ | .xshut _ _ => false
  | .xen _ _ | .xcol _ _ | .xmix _ _ | .xcfgblk _ _ | .xreserved _ _ => false
  | .nop | .openDev | .bindDev | .writeReg _ _ | .writeBlock _ _ | .selectBank _ | .writeConfig _ _ => true
  | .resetSeq | .configureSeq | .enableSeq | .setup | .loadFrame _ | .map | .present => true
  | .scrollInit | .tick | .scroll | .run => true
  | .reserved03 _ | .reserved14 _ | .reserved24 _ | .reserved33 _ | .reserved44 _ => true

/-! ### Words as the opcode table numbers them -/

/-- The longest host command: format HB with 255 payload bytes (R93). -/
def longestCommand : Nat := 258

/-- The bytes of a table word: byte k is bits 8k+7..8k, and the bits above `nbits` are 0. -/
def tableWordBytes (nbits w : Nat) : List Byte :=
  (List.range longestCommand).map fun k => BitVec.ofNat 8 ((w % 2 ^ nbits) >>> (8 * k))

/-- Exactly the bytes of the command at the front of a table word. -/
def tableCommandBytes (nbits w : Nat) : List Byte :=
  match decode (tableWordBytes nbits w) with
  | .ok (_, rest) => (tableWordBytes nbits w).take (longestCommand - rest.length)
  | .error _ => tableWordBytes nbits w

/-- The instruction the decoder reads from a table word. -/
def decodeTableWord (nbits w : Nat) : Option Instr :=
  match decode (tableCommandBytes nbits w) with
  | .ok (i, _) => some i
  | .error _ => none

end Sys2Proof
end

