-- ==== Sys2Proof/Machine/State.lean ====
section
/-! DEFINITION. The state of the block (CTRL), of the attached device (DEV) and of the environment (ENV), and the
state after reset (10_state.md R20 to R42, 70_reset_and_hazards.md R240, R241, R245). -/

namespace Sys2Proof.Machine

open Sys2Proof.Config

/-- `PHASE` (R23). -/
inductive Phase where
  | idle
  | busy
  | done
  | failed
  deriving DecidableEq, Repr

/-- The micro-step labels (R24). `S16` is R144's (log 12). -/
inductive Label where
  | O1 | O2
  | W1 | C1 | C2
  | S1 | S2 | S3 | S4 | S5 | S6 | S7 | S8 | S9 | S10 | S11 | S12 | S13 | S14 | S15 | S16
  | M1
  | I1
  | U1 | U2 | U3 | U4 | U5 | U6
  | K1 | K2 | K3 | K4
  deriving DecidableEq, Repr

/-- The reasons for which a host command is refused (60_exceptions.md R222), in the order they are checked. -/
inductive Reason where
  | terminal
  | busy
  | badOpcode
  | badOperand
  | alreadyOpen
  | notOpen
  | alreadyBound
  | notBound
  | notReady
  deriving DecidableEq, Repr

/-- What the host is told of a command it issued (log 1). -/
inductive Reply where
  | accepted
  | refused (r : Reason)
  deriving DecidableEq, Repr

/-- What the block does on its outputs (40_bus_adapter.md R121, 60_exceptions.md R225). -/
inductive BusEvent where
  /-- `open(path)` and its answer -/
  | openCall (path : String) (r : Answer)
  /-- `bindAddress(handle, address)` and its answer -/
  | bindCall (address : Nat) (r : Answer)
  /-- `transfer(handle, bytes)` and its answer -/
  | transfer (bytes : List Byte) (r : Answer)
  /-- a completed `Wait`, of at least `ms` milliseconds -/
  | wait (ms : Nat)
  deriving DecidableEq, Repr

/-- What ENV lets happen in one step (60_exceptions.md R231, log 4). -/
inductive EnvEvent where
  /-- the block moves: a micro-step while `BUSY`, else the host's next command if there is one -/
  | proceed
  /-- the host issues its next command, whatever `PHASE` is -/
  | attempt
  /-- block reset (R240) -/
  | blockReset
  /-- external device reset (R76, R241) -/
  | deviceReset
  deriving DecidableEq, Repr

/-- The registers of CTRL, exactly those of R22. -/
structure Ctrl where
  phase      : Phase
  cmd        : Option Instr
  seqPc      : Option Label
  cause      : Byte
  causeInner : Byte
  causeStep  : Option Label
  opened     : U1
  bound      : U1
  ready      : U1
  active     : U1
  offset     : S32
  textw      : S32
  /-- cell (x, y) at key `17*y + x`; an unlisted key reads 0x00 -/
  lframe     : ByteMemory
  /-- byte i at key i; an unlisted key reads 0x00 -/
  pbuf       : ByteMemory
  exit       : Option Int
  deriving DecidableEq, Repr

/-- The registers of DEV (R36 to R38). `none` is the spec's unknown value (R14). -/
structure Dev where
  banksel   : Option Byte
  mode      : Option Byte
  frame     : Option Byte
  audioSync : Option Byte
  shutdown  : Option Byte
  /-- `EN[b][j]` at key `256*b + j`; an unlisted key reads 0x00 -/
  en        : Memory (Option Byte)
  /-- `COL[b][i]` at key `256*b + i`; an unlisted key reads unknown -/
  col       : Memory (Option Byte)
  deriving DecidableEq, Repr

/-- ENV: the model's own fields, which hold what R41 gives to oracles and what the block's outputs showed. -/
structure Env where
  /-- the host's command bytes not yet taken (R93) -/
  stream  : List Byte
  /-- what happens in the next steps; when empty the block moves (log 4) -/
  sched   : List EnvEvent
  /-- the transport's next answers, where prescribed (log 5) -/
  answers : List Answer
  /-- how many answers the transport has given -/
  draws   : Nat
  /-- the outstanding transport call never returns (R227, log 6) -/
  hung    : Bool
  /-- what the host was last told of a command -/
  reply   : Option Reply
  /-- the bus events so far, newest first -/
  trace   : List BusEvent
  deriving DecidableEq, Repr

/-- The whole machine. -/
structure State where
  ctrl   : Ctrl
  dev    : Dev
  /-- `SETTLE_PENDING`, neither CTRL nor DEV (R245) -/
  settlePending : Bool
  env    : Env
  /-- the parameters of R8, which no step writes -/
  params : Params
  deriving DecidableEq, Repr

/-- The cases in which a step has no result (60_exceptions.md R220, R221). All are safe: the model stops where the
device goes on in a way no source describes. -/
inductive Fault where
  /-- a bank-relative transfer while `DEV.BANKSEL` is unknown; raised by every transfer (R66). Safe. -/
  | bankUnknown
  /-- a bank-relative transfer while `DEV.BANKSEL` is not 0, 1 or `CONFIG_BANK`; raised by every transfer (R66). Safe. -/
  | unmodelledBank
  /-- a transfer that addresses a register no source describes; raised by every transfer (R66). Safe. -/
  | undefinedRegister
  /-- a transfer that runs past address 0xFF; raised by every transfer (R66). Safe. -/
  | addressOverflow
  /-- a transfer of more than one byte to `BANK_REGISTER`; raised by every transfer (R66). Safe. -/
  | bankRegisterBlock
  /-- a transfer without a payload byte, which R65 says CTRL never issues; raised by the wire classes and by
  `WRITE_BLOCK` in a state no run reaches (log 18). Safe. -/
  | emptyTransfer
  /-- `PHASE` is `BUSY` and `SEQ_PC` names no micro-step of the command in `CMD`; raised by the sequencer in a state
  no run reaches (log 19). Safe. -/
  | noMicroStep
  deriving DecidableEq, Repr

/-- The cases in which the model gives no meaning. -/
inductive Refusal where
  /-- an instruction without a meaning; raised by `exec`'s arms only. Safe. -/
  | notModelled (mnemonic : String)
  /-- the parameter set breaks R9, R10 or R8's nonzero exit code; raised by `step` (log 3). Safe. -/
  | illFormedParameters
  /-- an `XRESERVED` term whose transfer R66 gives an effect, so that it is of another class of R92; raised by
  `execXreserved`, never for a term that `decodeWire` gives (log 17). Safe. -/
  | notReserved
  deriving DecidableEq, Repr

/-- What a step answers. -/
abbrev Out := Host.Outcome State Fault Refusal

/-- CTRL after a block reset: the reset column of R22 (R240). -/
def Ctrl.reset : Ctrl where
  phase      := .idle
  cmd        := none
  seqPc      := none
  cause      := 0x00
  causeInner := 0x00
  causeStep  := none
  opened     := 0
  bound      := 0
  ready      := 0
  active     := 0
  offset     := 0
  textw      := 0
  lframe     := []
  pbuf       := []
  exit       := none

/-- DEV at power-on and after an external reset (R42, R241). -/
def Dev.powerOn : Dev where
  banksel   := none
  mode      := none
  frame     := none
  audioSync := none
  shutdown  := none
  en        := []
  col       := []

/-- ENV before anything has happened (log 21). -/
def Env.start : Env where
  stream  := []
  sched   := []
  answers := []
  draws   := 0
  hung    := false
  reply   := none
  trace   := []

/-- The machine after a block reset and device power-on (R42, R240, R241), with R8's suggested parameters (log 2). -/
def State.reset : State where
  ctrl          := .reset
  dev           := .powerOn
  settlePending := false
  env           := .start
  params        := defaultParams

end Sys2Proof.Machine
end

