-- ==== Sys2Proof/Machine/Ops.lean ====
section
/-! DEFINITION. The named operations over buffers, device registers and the transport, taking an error (60_exceptions.md
R215), and the two resets. -/

namespace Sys2Proof.Machine

open Sys2Proof.Config

/-! ### Cells in canonical form -/

/-- The value at a key; an unlisted key reads `d`. -/
def Memory.read {α : Type} (d : α) (m : Memory α) (a : Nat) : α := (m.lookup a).getD d

/-- The list with the value of one key set, keys kept rising. -/
def Memory.put {α : Type} : Memory α → Nat → α → Memory α
  | [], a, v => [(a, v)]
  | (b, w) :: m, a, v =>
    if a < b then (a, v) :: (b, w) :: m
    else if a = b then (a, v) :: m
    else (b, w) :: Memory.put m a v

/-- Writing a key; writing what an unlisted key reads removes the entry. -/
def Memory.write {α : Type} [DecidableEq α] (d : α) (m : Memory α) (a : Nat) (v : α) : Memory α :=
  if v = d then m.filter (fun cell => cell.1 != a) else Memory.put m a v

/-- The canonical form: keys strictly rising, and no entry that equals what an unlisted key reads. -/
def Memory.wf {α : Type} [DecidableEq α] (d : α) (m : Memory α) : Bool :=
  decide ((m.map Prod.fst).Pairwise (· < ·)) && m.all (fun cell => cell.2 != d)

/-! ### The buffers of CTRL and the arrays of DEV -/

/-- `LFRAME[y][x]` of a frame (R30). -/
def frameCell (f : ByteMemory) (x y : Nat) : Byte := Memory.read 0 f (17 * y + x)

/-- The frame with cell (x, y) set. -/
def setFrameCell (f : ByteMemory) (x y : Nat) (v : Byte) : ByteMemory := Memory.write 0 f (17 * y + x) v

/-- Byte `i` of a physical buffer (R31). -/
def bufferByte (b : ByteMemory) (i : Nat) : Byte := Memory.read 0 b i

/-- The 144 bytes `PBUF[0..143]` in order. -/
def bufferBytes (b : ByteMemory) : List Byte := (List.range pbufLen).map (bufferByte b)

/-- `DEV.EN[b][j]` (R38). -/
def Dev.enableByte (d : Dev) (b j : Nat) : Option Byte := Memory.read (some 0) d.en (256 * b + j)

/-- `DEV.COL[b][i]` (R38). -/
def Dev.colorByte (d : Dev) (b i : Nat) : Option Byte := Memory.read none d.col (256 * b + i)

/-! ### A transfer's effect on the device (R66, R72) -/

/-- Why R66 gives a transfer no meaning under the selected bank, if it does. The payload has `n` bytes. -/
def transferFault (c : Params) (sel : Option Byte) (a : Byte) (n : Nat) : Option Fault :=
  if n = 0 then some .emptyTransfer
  else if a = c.bankRegister then (if n = 1 then none else some .bankRegisterBlock)
  else
    match sel with
    | none => some .bankUnknown
    | some s =>
      if !(isFrameBank s || s == c.configBank) then some .unmodelledBank
      else if a.toNat + n - 1 > 0xFF then some .addressOverflow
      else if span (fun k => (target c s k).isSome) a.toNat n then none
      else some .undefinedRegister

/-- Store one byte, or the unknown value, in a register of the device. A completed write of 0x00 to the shutdown register
at any label but S2 sets `SETTLE_PENDING` (R245). -/
def writeTarget (t : Target) (v : Option Byte) (s : State) : State :=
  match t with
  | .enable b j => { s with dev := { s.dev with en := Memory.write (some 0) s.dev.en (256 * b + j) v } }
  | .color b i => { s with dev := { s.dev with col := Memory.write none s.dev.col (256 * b + i) v } }
  | .mode => { s with dev := { s.dev with mode := v } }
  | .frame => { s with dev := { s.dev with frame := v } }
  | .audioSync => { s with dev := { s.dev with audioSync := v } }
  | .shutdown =>
    { s with
      dev := { s.dev with shutdown := v }
      settlePending := s.settlePending || (v == some shutdownOffValue && s.ctrl.seqPc != some .S2) }

/-- Store a payload from address `n` on in bank `b`, in ascending order (R66). -/
def writePayload (b : Byte) : Nat → List (Option Byte) → State → State
  | _, [], s => s
  | n, v :: vs, s =>
    writePayload b (n + 1) vs
      (match target s.params b n with
        | some t => writeTarget t v s
        | none => s)

/-- Store a payload at the registers that a transfer to address `a` reaches (R64, R66). -/
def storeTransfer (a : Byte) (vs : List (Option Byte)) (s : State) : State :=
  if a = s.params.bankRegister then { s with dev := { s.dev with banksel := vs.headD none } }
  else
    match s.dev.banksel with
    | some b => writePayload b a.toNat vs s
    | none => s

/-- `DevApply([a] ++ p)` of R66. -/
def applyTransfer (a : Byte) (p : List Byte) (s : State) : Out :=
  match transferFault s.params s.dev.banksel a p.length with
  | some f => .fault f
  | none => .next (storeTransfer a (p.map some) s)

/-- What a transfer that returned `err` leaves: every byte it addresses unknown (R72). -/
def havocTransfer (a : Byte) (p : List Byte) (s : State) : State := storeTransfer a (p.map fun _ => none) s

/-! ### The transport (R121) -/

/-- The transport's next answer: the prescribed one, else a free value (log 5). -/
def Env.nextAnswer (e : Env) : Answer :=
  match e.answers with
  | r :: _ => r
  | [] => transportAnswer e.draws

/-- Take the transport's answer to a call and record the call. -/
def State.takeAnswer (s : State) (ev : BusEvent) : State :=
  { s with env := { s.env with answers := s.env.answers.tail, draws := s.env.draws + 1, trace := ev :: s.env.trace } }

/-- The outstanding call never returns (R227). -/
def State.hang (s : State) : State := { s with env := { s.env with hung := true } }

/-- A completed wait of at least `ms` milliseconds (R225). -/
def State.waited (s : State) (ms : Nat) : State :=
  { s with env := { s.env with trace := .wait ms :: s.env.trace } }

/-- One call of the transport: take the answer, record the call, go on by the answer (R121). -/
def callTransport (ev : Answer → BusEvent) (onOk onErr : State → Out) (s : State) : Out :=
  match s.env.nextAnswer with
  | .ok => onOk (s.takeAnswer (ev .ok))
  | .err => onErr (s.takeAnswer (ev .err))
  | .hang => .next (s.takeAnswer (ev .hang)).hang

/-! ### The write sequencer's registers (R24, R94) -/

/-- Go to the next label, or end the command: `SEQ_PC <- none; PHASE <- IDLE` (R24). -/
def State.goto (s : State) : Option Label → State
  | some l => { s with ctrl := { s.ctrl with seqPc := some l } }
  | none => { s with ctrl := { s.ctrl with seqPc := none, phase := .idle } }

/-- Tell the host that its command is refused; nothing else changes (R222, log 1). -/
def State.refuse (s : State) (r : Reason) : State := { s with env := { s.env with reply := some (.refused r) } }

/-- Tell the host that its command is accepted. -/
def State.admitted (s : State) : State := { s with env := { s.env with reply := some .accepted } }

/-- Accept a command with micro-steps (R94). -/
def State.accept (s : State) (i : Instr) (l : Option Label) : State :=
  { s.admitted with ctrl := { s.ctrl with cmd := some i, phase := .busy, seqPc := l } }

/-- The end of a scroll: `PHASE <- DONE; EXIT <- 0; SEQ_PC <- none` (R189, R219). -/
def State.finish (s : State) : State :=
  { s with ctrl := { s.ctrl with phase := .done, exit := some successExitCode, seqPc := none } }

/-! ### Taking an error (R211, R215) -/

/-- `CAUSE` codes (R211). -/
def causeDeviceOpen : Byte := 0x01
def causeAddressBind : Byte := 0x02
def causeTransport : Byte := 0x03
def causeSetup : Byte := 0x04

/-- `raise C(inner, step)` (R215): the one entry to `FAILED`. There is no return from it but the block reset (R218). -/
def State.raise (s : State) (cause inner : Byte) (step : Label) : State :=
  { s with
    ctrl := { s.ctrl with
      cause := cause
      causeInner := inner
      causeStep := some step
      seqPc := none
      phase := .failed
      exit := some s.params.failExitCode } }

/-- A setup step, S1 to S15 (R130). -/
def isSetupStep : Label → Bool
  | .S1 | .S2 | .S3 | .S4 | .S5 | .S6 | .S7 | .S8 | .S9 | .S10 | .S11 | .S12 | .S13 | .S14 | .S15 => true
  | .S16 | .O1 | .O2 | .W1 | .C1 | .C2 | .M1 | .I1 => false
  | .U1 | .U2 | .U3 | .U4 | .U5 | .U6 | .K1 | .K2 | .K3 | .K4 => false

/-- One of the four setup commands of R130. -/
def isSetupCommand (i : Option Instr) : Bool :=
  i == some .resetSeq || i == some .configureSeq || i == some .enableSeq || i == some .setup

/-- The error a failed transfer raises at a label: `SetupError` wrapping `TransportError` in a setup step, else
`TransportError` (R130, R216). -/
def State.raiseTransfer (s : State) (l : Label) : State :=
  if isSetupCommand s.ctrl.cmd || isSetupStep l then s.raise causeSetup causeTransport l
  else s.raise causeTransport 0x00 l

/-! ### The resets -/

/-- Block reset (R240): CTRL's reset values, the transport handle dropped, no transfer, DEV untouched. It abandons an
outstanding call (log 6), and clears `SETTLE_PENDING` (R245, log 14). -/
def State.blockReset (s : State) : State :=
  { s with ctrl := .reset, settlePending := false, env := { s.env with hung := false } }

/-- A transfer is outstanding: a transport call that is neither `open` nor `bindAddress` hangs. -/
def State.inTransfer (s : State) : Bool :=
  s.env.hung && s.ctrl.seqPc != some .O1 && s.ctrl.seqPc != some .O2

/-- External device reset (R76, R241): DEV at power-on, CTRL not informed. None falls inside a transfer (R70, log 6). -/
def State.deviceReset (s : State) : State :=
  if s.inTransfer then s else { s with dev := .powerOn, settlePending := false }

end Sys2Proof.Machine
end

