-- ==== Sys2Proof/Machine/Flags.lean ====
section
/-! DEFINITION. The status registers (10_state.md R25): the acceptance checks that read them (60_exceptions.md R222)
and the commands' own writes of `READY`. -/

namespace Sys2Proof.Machine

/-- The check of R222 that the reason belongs to fails. `badOpcode` and `badOperand` fail where a command's meaning
lists them, which it does only for a reserved opcode or an illegal operand. -/
def Reason.failsIn (r : Reason) (c : Ctrl) : Bool :=
  match r with
  | .terminal => c.phase == .done || c.phase == .failed
  | .busy => c.phase == .busy
  | .badOpcode => true
  | .badOperand => true
  | .alreadyOpen => c.opened == 1
  | .notOpen => c.opened == 0
  | .alreadyBound => c.bound == 1
  | .notBound => c.bound == 0
  | .notReady => c.ready == 0

/-- The first failing check of a command: `Terminal` and `Busy` apply to all, then the command's own in R222's order. -/
def firstRefusal (checks : List Reason) (c : Ctrl) : Option Reason :=
  (Reason.terminal :: Reason.busy :: checks).find? (·.failsIn c)

/-- `READY <- 0` (R141, R144, R192). -/
def State.clearReady (s : State) : State := { s with ctrl := { s.ctrl with ready := 0 } }

/-- `READY <- 1` (R144). -/
def State.setReady (s : State) : State := { s with ctrl := { s.ctrl with ready := 1 } }

/-- `OPENED <- 1` (R122). -/
def State.setOpened (s : State) : State := { s with ctrl := { s.ctrl with opened := 1 } }

/-- `BOUND <- 1` (R123). -/
def State.setBound (s : State) : State := { s with ctrl := { s.ctrl with bound := 1 } }

end Sys2Proof.Machine
end

