-- ==== Sys2Proof/Machine/Operands.lean ====
section
/-! DEFINITION. The operand forms: which operands R97 calls illegal, and the bytes that each transfer step puts on
the wire (40_bus_adapter.md R124 to R127, 41_setup_sequencer.md R140, 43_scroll_sequencer.md R187). -/

namespace Sys2Proof.Machine

open Sys2Proof.Config

/-- `WRITE_BLOCK`'s operand check: a count of 0 is illegal (R97), and a count is one byte (R93). -/
def blockOperandChecks (d : List Byte) : List Reason :=
  if 1 ≤ d.length ∧ d.length ≤ 255 then [] else [.badOperand]

/-- `LOAD_FRAME`'s operand check: 119 cells (R93, R168). -/
def frameOperandChecks (f : List Byte) : List Reason :=
  if f.length = cells then [] else [.badOperand]

/-- The one transfer of step W1, by the command in `CMD` (R124, R125, R126). -/
def writeOperands (c : Params) : Option Instr → Option (Byte × List Byte)
  | some (.writeReg a v) => some (a, [v])
  | some (.writeBlock a d) => some (a, d)
  | some (.selectBank b) => some (c.bankRegister, [b])
  | _ => none

/-- The transfer of step C2, by the command in `CMD` (R127). -/
def configOperands : Option Instr → Option (Byte × List Byte)
  | some (.writeConfig a v) => some (a, [v])
  | _ => none

/-- A bank select's bytes (R64). -/
def selectBytes (c : Params) (b : Byte) : Byte × List Byte := (c.bankRegister, [b])

/-- The enable mask's bytes: `[ENABLE_BASE] ++ rep(17, 0xFF)` (R140). -/
def enableMaskBytes (c : Params) : Byte × List Byte := (c.enableBase, List.replicate enableMaskLen enableMaskByte)

/-- `ACTIVE` as a payload byte (R187). -/
def activeByte (s : State) : Byte := s.ctrl.active.setWidth 8

/-- The colour block's bytes: `[COLOR_BASE] ++ PBUF[0..143]` (R187). -/
def colorBlockBytes (s : State) : Byte × List Byte := (s.params.colorBase, bufferBytes s.ctrl.pbuf)

end Sys2Proof.Machine
end

