-- ==== Sys2Proof/Machine/MapFunction.lean ====
section
/-! DEFINITION. The pixel mapper's function (42_pixel_mapper.md R160 to R165). -/

namespace Sys2Proof.Machine

open Sys2Proof.Config

/-- `idx(x, y)` on Int (R162). -/
def idxInt (x y : Int) : Int := if x ≤ 8 then 6 + (8 - x) * 16 - y else 8 + (x - 9) * 16 + y

/-- `idx(x, y)` as a buffer index (R162, R163). -/
def idx (x y : Nat) : Nat := (idxInt x y).toNat

/-- The cells in the loop's order: x outer, y inner (R161). -/
def cellList : List (Nat × Nat) :=
  (List.range cols).flatMap fun x => (List.range rows).map fun y => (x, y)

/-- `map(F)` (R161): an all-zero buffer, then every mapped byte. -/
def mapFrame (f : ByteMemory) : ByteMemory :=
  cellList.foldl (fun b xy => Memory.write 0 b (idx xy.1 xy.2) (frameCell f xy.1 xy.2)) []

end Sys2Proof.Machine
end

