-- ==== Sys2Proof/Machine/Parameters.lean ====
section
/-! DEFINITION. Which parameter sets the model accepts (00_scope.md R8, R9, R10), and the widths that the
rasterizer's oracle gives the displayed text (43_scroll_sequencer.md R183). -/

namespace Sys2Proof.Machine

open Sys2Proof.Config

/-- The prescribed glyph of a character, if the parameters list one (log 7). -/
def glyphOf (c : Params) (ch : Char) : Option Glyph := c.font.lookup ch

/-- `w` of R184: a character's advance width, which depends on the character alone. -/
def advanceWidth (c : Params) (ch : Char) : Nat :=
  match glyphOf c ch with
  | some g => g.width
  | none => glyphWidth ch

/-- `W(DISPLAY_TEXT)` of R183: the widths and one spacing column between adjacent glyphs. -/
def textWidth (c : Params) : Nat :=
  (c.displayText.map (advanceWidth c)).sum + (c.displayText.length - 1)

/-- R9 (a): both areas end at or below 0xFF. -/
def areasFit (c : Params) : Bool :=
  c.colorBase.toNat + pbufLen - 1 ≤ 0xFF && c.enableBase.toNat + c.enableRegCount - 1 ≤ 0xFF

/-- R9 (b): the two areas are disjoint. -/
def areasDisjoint (c : Params) : Bool :=
  c.enableBase.toNat + c.enableRegCount ≤ c.colorBase.toNat ||
    c.colorBase.toNat + pbufLen ≤ c.enableBase.toNat

/-- R9 (c): `BANK_REGISTER` lies in neither area and is no config register. -/
def bankRegisterApart (c : Params) : Bool :=
  !inEnableArea c c.bankRegister.toNat && !inColorArea c c.bankRegister.toNat &&
    !isConfigRegister c c.bankRegister.toNat

/-- R9 (d): the four config-register addresses are pairwise distinct. -/
def configRegistersDistinct (c : Params) : Bool :=
  c.modeRegister != c.frameRegister && c.modeRegister != c.audioSyncRegister &&
    c.modeRegister != c.shutdownRegister && c.frameRegister != c.audioSyncRegister &&
    c.frameRegister != c.shutdownRegister && c.audioSyncRegister != c.shutdownRegister

/-- R9 (e): `CONFIG_BANK` is not a frame bank. -/
def configBankApart (c : Params) : Bool := !isFrameBank c.configBank

/-- R9 (f): the enable mask fits the enable area. -/
def enableMaskFits (c : Params) : Bool := enableMaskLen ≤ c.enableRegCount

/-- R8: `FAIL_EXIT_CODE` is nonzero. -/
def failCodeNonzero (c : Params) : Bool := c.failExitCode != 0

/-- R10: `0 <= textWidth <= 2^31 - 19`. -/
def textFits (c : Params) : Bool := textWidth c ≤ 2 ^ 31 - 19

/-- The parameter sets the model accepts: R9, with R8's nonzero exit code and R10's bound on the text (log 3). -/
def wellFormedParams (c : Params) : Bool :=
  failCodeNonzero c && areasFit c && areasDisjoint c && bankRegisterApart c && configRegistersDistinct c &&
    configBankApart c && enableMaskFits c && textFits c

end Sys2Proof.Machine
end

