-- ==== Sys2Proof/Machine/Rasterizer.lean ====
section
/-! DEFINITION. The rasterizer's oracle and `render` (43_scroll_sequencer.md R182 to R186). -/

namespace Sys2Proof.Machine

open Sys2Proof.Config

/-- What a prescribed glyph puts in its column `k`, row `y`; `none` leaves the cell alone. -/
def Glyph.cell (g : Glyph) (k y : Nat) : Option Byte := (g.columns.getD k []).getD y none

/-- The byte that drawing `ch` at cursor `x` over the frame `f` puts in cell (x', y), inside the glyph's columns: the
prescribed glyph's, else a free value (R184, log 7). `none` leaves the cell alone. -/
def glyphInk (c : Params) (f : ByteMemory) (x : Int) (ch : Char) (x' y : Nat) : Option Byte :=
  match glyphOf c ch with
  | some g => Glyph.cell g ((x' : Int) - x).toNat y
  | none => some (glyphCell f x ch x' y)

/-- The cell lies in the glyph's columns `x <= x' < x + w` (R184 (b)). -/
def inGlyph (x : Int) (w : Nat) (x' : Nat) : Bool := x ≤ (x' : Int) && (x' : Int) < x + (w : Int)

/-- Paint one cell of the window, if the glyph covers it (R184 (b), R185). -/
def paintCell (c : Params) (f : ByteMemory) (x : Int) (ch : Char) (g : ByteMemory) (xy : Nat × Nat) : ByteMemory :=
  if inGlyph x (advanceWidth c ch) xy.1 then
    match glyphInk c f x ch xy.1 xy.2 with
    | some v => setFrameCell g xy.1 xy.2 v
    | none => g
  else g

/-- `drawGlyph(F, x, c)`: the frame with the glyph painted, clipped to the window, and the advance width (R184, R185). -/
def drawGlyph (c : Params) (f : ByteMemory) (x : Int) (ch : Char) : ByteMemory × Nat :=
  (cellList.foldl (paintCell c f x ch) f, advanceWidth c ch)

/-- `render`'s loop over the characters left; `first` says that the next one gets no spacing column before it (R182). -/
def renderText (c : Params) : List Char → Bool → ByteMemory → Int → ByteMemory × Int
  | [], _, f, cursor => (f, cursor)
  | ch :: text, first, f, cursor =>
    let start := if first then cursor else cursor + 1
    let drawn := drawGlyph c f start ch
    renderText c text false drawn.1 (start + drawn.2)

/-- `render(o)` (R182): the frame, and the text's total width. -/
def render (c : Params) (o : Int) : ByteMemory × Int :=
  let r := renderText c c.displayText true [] o
  (r.1, r.2 - o)

end Sys2Proof.Machine
end

