-- ==== Sys2Proof/Machine/Sequencer.lean ====
section
/-! DEFINITION. The write sequencer: the micro-step tables (40_bus_adapter.md R122 to R127, 41_setup_sequencer.md R140,
42_pixel_mapper.md R169, 43_scroll_sequencer.md R181, R187, R189), one micro-step, and the acceptance of a command
(30_encoding.md R94). -/

namespace Sys2Proof.Machine

open Sys2Proof.Config

/-- What a micro-step does. -/
inductive Action where
  /-- `XferStep([a] ++ p, next)` (R130) -/
  | xfer (a : Byte) (p : List Byte)
  /-- `Wait(ms)` (R225) -/
  | wait (ms : Nat)
  /-- `open(DEVICE_PATH)` (R122) -/
  | openNode
  /-- `bindAddress(handle, DEVICE_ADDRESS)` (R123) -/
  | bindAddress
  /-- `READY <- 1` (R144) -/
  | markReady
  /-- `PBUF <- map(LFRAME)` (R169, R187) -/
  | mapBuffer
  /-- `OFFSET <- 0; ACTIVE <- 0; TEXTW <- 0` (R181) -/
  | initScroll
  /-- `ACTIVE <- ACTIVE xor 1` (R187) -/
  | toggleActive
  /-- `OFFSET <- OFFSET - 1` (R189) -/
  | stepOffset
  /-- `(LFRAME, TEXTW) <- render(OFFSET + WINDOW_WIDTH)` (R189) -/
  | renderFrame
  /-- the termination test (R189, R190) -/
  | testEnd
  deriving DecidableEq, Repr

/-- A transfer of given bytes. -/
def Action.send (bytes : Byte × List Byte) : Action := .xfer bytes.1 bytes.2

/-- The tables' action column: what the label's micro-step does in the state. Only W1 and C2 depend on the command in
`CMD`, and name nothing where it has no such step. -/
def labelAction (s : State) : Label → Option Action
  | .O1 => some .openNode
  | .O2 => some .bindAddress
  | .W1 => (writeOperands s.params s.ctrl.cmd).map Action.send
  | .C1 => some (.send (selectBytes s.params s.params.configBank))
  | .C2 => (configOperands s.ctrl.cmd).map Action.send
  | .S1 => some (.send (selectBytes s.params s.params.configBank))
  | .S2 => some (.xfer s.params.shutdownRegister [shutdownOffValue])
  | .S3 => some (.wait resetSettleMs)
  | .S4 => some (.send (selectBytes s.params s.params.configBank))
  | .S5 => some (.xfer s.params.shutdownRegister [shutdownOnValue])
  | .S6 => some (.send (selectBytes s.params s.params.configBank))
  | .S7 => some (.xfer s.params.frameRegister [0x00])
  | .S8 => some (.send (selectBytes s.params s.params.configBank))
  | .S9 => some (.xfer s.params.modeRegister [s.params.pictureMode])
  | .S10 => some (.send (selectBytes s.params s.params.configBank))
  | .S11 => some (.xfer s.params.audioSyncRegister [audioSyncOffValue])
  | .S12 => some (.send (selectBytes s.params 0x00))
  | .S13 => some (.send (enableMaskBytes s.params))
  | .S14 => some (.send (selectBytes s.params 0x01))
  | .S15 => some (.send (enableMaskBytes s.params))
  | .S16 => some .markReady
  | .M1 => some .mapBuffer
  | .I1 => some .initScroll
  | .U1 => some .mapBuffer
  | .U2 => some (.send (selectBytes s.params (activeByte s)))
  | .U3 => some (.send (colorBlockBytes s))
  | .U4 => some (.send (selectBytes s.params s.params.configBank))
  | .U5 => some (.xfer s.params.frameRegister [activeByte s])
  | .U6 => some .toggleActive
  | .K1 => some .stepOffset
  | .K2 => some .renderFrame
  | .K3 => some .testEnd
  | .K4 => some (.wait frameIntervalMs)

/-- A command's sequence of labels. After the last one the command ends, or goes back to `loopTo`. -/
structure Table where
  labels : List Label
  loopTo : Option Label
  deriving DecidableEq, Repr

/-- The label after `l` in a list of labels: `none` where `l` is not in it, `some last` after the final one. -/
def successor (last : Option Label) : List Label → Label → Option (Option Label)
  | [], _ => none
  | [x], l => if x = l then some last else none
  | x :: y :: rest, l => if x = l then some (some y) else successor last (y :: rest) l

/-- Where the command goes after the micro-step `l`: a label, or `some none` for the command's end; `none` where `l`
is no step of the command. -/
def Table.after (t : Table) (l : Label) : Option (Option Label) := successor t.loopTo t.labels l

/-- The first label of a command's sequence. -/
def Table.first (t : Table) : Option Label := t.labels.head?

/-! ### Performing a micro-step -/

/-- Completion of S5 clears `SETTLE_PENDING` (R245). -/
def State.settleAfter (s : State) (l : Label) : State :=
  if l = .S5 then { s with settlePending := false } else s

/-- A transfer that returned `ok`: the device applies it, and the sequence goes on (R130). -/
def completeTransfer (l : Label) (a : Byte) (p : List Byte) (nxt : Option Label) (s : State) : Out :=
  match applyTransfer a p s with
  | .next t => .next ((t.settleAfter l).goto nxt)
  | .fault f => .fault f
  | .refused r => .refused r

/-- A transfer that returned `err`: the model fault of R66 if its checks fail, else the partial effect of R72 and the
error (R130, R217). -/
def failTransfer (l : Label) (a : Byte) (p : List Byte) (s : State) : Out :=
  match transferFault s.params s.dev.banksel a p.length with
  | some f => .fault f
  | none => .next ((havocTransfer a p s).raiseTransfer l)

/-- `XferStep([a] ++ p, next)` at label `l` (R130). -/
def xferStep (l : Label) (a : Byte) (p : List Byte) (nxt : Option Label) (s : State) : Out :=
  callTransport (.transfer (a :: p)) (completeTransfer l a p nxt) (failTransfer l a p) s

/-- O1 (R122, R212). -/
def openStep (l : Label) (nxt : Option Label) (s : State) : Out :=
  callTransport (.openCall s.params.devicePath)
    (fun t => .next (t.setOpened.goto nxt))
    (fun t => .next (t.raise causeDeviceOpen 0x00 l)) s

/-- `READY <- 0` on the way from O2 to S1, which only RUN takes (R192, log 13). -/
def State.enterSetup (s : State) (nxt : Option Label) : State :=
  if nxt = some .S1 then s.clearReady else s

/-- O2 (R123, R192, R213). -/
def bindStep (l : Label) (nxt : Option Label) (s : State) : Out :=
  callTransport (.bindCall s.params.deviceAddress)
    (fun t => .next ((t.setBound.enterSetup nxt).goto nxt))
    (fun t => .next (t.raise causeAddressBind 0x00 l)) s

/-- `PBUF <- map(LFRAME)` (R161). -/
def State.mapBuffer (s : State) : State := { s with ctrl := { s.ctrl with pbuf := mapFrame s.ctrl.lframe } }

/-- I1 (R181). R181's pseudocode sets `TEXTW` to 0 here, against R29's "Only TICK writes it": DEDUCED, log 28. -/
def State.initScroll (s : State) : State := { s with ctrl := { s.ctrl with offset := 0, active := 0, textw := 0 } }

/-- U6 (R187). -/
def State.toggleActive (s : State) : State := { s with ctrl := { s.ctrl with active := s.ctrl.active ^^^ 1 } }

/-- K1 (R189). -/
def State.stepOffset (s : State) : State := { s with ctrl := { s.ctrl with offset := s.ctrl.offset - 1 } }

/-- K2 (R182, R189). -/
def State.renderFrame (s : State) : State :=
  let r := render s.params (s.ctrl.offset + windowWidth).toInt
  { s with ctrl := { s.ctrl with lframe := r.1, textw := BitVec.ofInt 32 r.2 } }

/-- `OFFSET + WINDOW_WIDTH + TEXTW < 0` on s32 (R190). -/
def scrolledOut (c : Ctrl) : Bool := (c.offset + windowWidth + c.textw).slt 0

/-- Perform the action of label `l` and go on to `nxt`. -/
def perform (l : Label) (act : Action) (nxt : Option Label) (s : State) : Out :=
  match act with
  | .xfer a p => xferStep l a p nxt s
  | .wait ms => .next ((s.waited ms).goto nxt)
  | .openNode => openStep l nxt s
  | .bindAddress => bindStep l nxt s
  | .markReady => .next (s.setReady.goto nxt)
  | .mapBuffer => .next (s.mapBuffer.goto nxt)
  | .initScroll => .next (s.initScroll.goto nxt)
  | .toggleActive => .next (s.toggleActive.goto nxt)
  | .stepOffset => .next (s.stepOffset.goto nxt)
  | .renderFrame => .next (s.renderFrame.goto nxt)
  | .testEnd => if scrolledOut s.ctrl then .next s.finish else .next (s.goto nxt)

/-- The next micro-step of the command whose sequence is `t`. While a call hangs there is none: the state stays
(R227). -/
def microStep (t : Table) (s : State) : Out :=
  if s.env.hung then .next s
  else
    match s.ctrl.seqPc with
    | none => .fault .noMicroStep
    | some l =>
      match t.after l, labelAction s l with
      | some nxt, some act => perform l act nxt s
      | _, _ => .fault .noMicroStep

/-- The command `i` is executing. -/
def State.executing (s : State) (i : Instr) : Bool := s.ctrl.phase == .busy && s.ctrl.cmd == some i

/-- A command with micro-steps: its next micro-step while it executes; else the host issues it, and it is refused by
the first failing check (R222) or accepted (R94), with `onAccept` its own writes at acceptance. -/
def runCommand (i : Instr) (checks : List Reason) (t : Table) (onAccept : State → State) (s : State) : Out :=
  if s.executing i then microStep t s
  else
    match firstRefusal checks s.ctrl with
    | some r => .next (s.refuse r)
    | none => .next (onAccept (s.accept i t.first))

/-- A command without micro-steps: its whole effect at acceptance (R94). -/
def immediateCommand (checks : List Reason) (effect : State → State) (s : State) : Out :=
  match firstRefusal checks s.ctrl with
  | some r => .next (s.refuse r)
  | none => .next (effect s.admitted)

end Sys2Proof.Machine
end

