-- ==== Sys2Proof/Machine/Adapter.lean ====
section
/-! DEFINITION. The bus adapter's commands (40_bus_adapter.md R122 to R127, R131). -/

namespace Sys2Proof.Machine

/-- `NOP` (R131): no effect. -/
def execNop (s : State) : Out := immediateCommand [] id s

def openTable : Table := { labels := [.O1], loopTo := none }

/-- `OPEN` (R122). -/
def execOpen (s : State) : Out := runCommand .openDev [.alreadyOpen] openTable id s

def bindTable : Table := { labels := [.O2], loopTo := none }

/-- `BIND` (R123). -/
def execBind (s : State) : Out := runCommand .bindDev [.notOpen, .alreadyBound] bindTable id s

def writeTable : Table := { labels := [.W1], loopTo := none }

/-- `WRITE_REG a, v` (R124). -/
def execWriteReg (a v : Byte) (s : State) : Out := runCommand (.writeReg a v) [.notBound] writeTable id s

/-- `WRITE_BLOCK a, n, d` (R125). -/
def execWriteBlock (a : Byte) (d : List Byte) (s : State) : Out :=
  runCommand (.writeBlock a d) (blockOperandChecks d ++ [.notBound]) writeTable id s

/-- `SELECT_BANK b` (R126). -/
def execSelectBank (b : Byte) (s : State) : Out := runCommand (.selectBank b) [.notBound] writeTable id s

def configTable : Table := { labels := [.C1, .C2], loopTo := none }

/-- `WRITE_CONFIG a, v` (R127). -/
def execWriteConfig (a v : Byte) (s : State) : Out := runCommand (.writeConfig a v) [.notBound] configTable id s

end Sys2Proof.Machine
end

