-- ==== Sys2Proof/Machine/Mapper.lean ====
section
/-! DEFINITION. The pixel mapper's commands (42_pixel_mapper.md R168, R169). -/

namespace Sys2Proof.Machine

open Sys2Proof.Config

/-- The frame that LOAD_FRAME's operand gives: cell (x, y) is `f[17*y + x]` (R168). -/
def frameOfBytes (f : List Byte) : ByteMemory :=
  cellList.foldl (fun g xy => setFrameCell g xy.1 xy.2 (f.getD (17 * xy.2 + xy.1) 0)) []

/-- `LFRAME <- f` (R168). -/
def State.loadFrame (f : List Byte) (s : State) : State :=
  { s with ctrl := { s.ctrl with lframe := frameOfBytes f } }

/-- `LOAD_FRAME f` (R168): its whole effect at acceptance. -/
def execLoadFrame (f : List Byte) (s : State) : Out := immediateCommand (frameOperandChecks f) (State.loadFrame f) s

def mapTable : Table := { labels := [.M1], loopTo := none }

/-- `MAP` (R169). -/
def execMap (s : State) : Out := runCommand .map [] mapTable id s

end Sys2Proof.Machine
end

