-- ==== Sys2Proof/Machine/Reserved.lean ====
section
/-! DEFINITION. The reserved host opcodes (30_encoding.md R96): refused with `BadOpcode`, no state change. -/

namespace Sys2Proof.Machine

/-- A reserved opcode: `Terminal` and `Busy` are checked before `BadOpcode` (R222). -/
def refuseOpcode (s : State) : Out := .next (s.refuse ((firstRefusal [.badOpcode] s.ctrl).getD .badOpcode))

/-- Opcodes 0x03 to 0x0F (R96). -/
def execReserved03 (_op : Byte) (s : State) : Out := refuseOpcode s

/-- Opcodes 0x14 to 0x1F (R96). -/
def execReserved14 (_op : Byte) (s : State) : Out := refuseOpcode s

/-- Opcodes 0x24 to 0x2F (R96). -/
def execReserved24 (_op : Byte) (s : State) : Out := refuseOpcode s

/-- Opcodes 0x33 to 0x3F (R96). -/
def execReserved33 (_op : Byte) (s : State) : Out := refuseOpcode s

/-- Opcodes 0x44 to 0xFF (R96). -/
def execReserved44 (_op : Byte) (s : State) : Out := refuseOpcode s

end Sys2Proof.Machine
end

