-- ==== Sys2Proof/Machine/Setup.lean ====
section
/-! DEFINITION. The setup sequencer's commands (41_setup_sequencer.md R140 to R144). -/

namespace Sys2Proof.Machine

def resetLabels : List Label := [.S1, .S2, .S3, .S4, .S5]

def configureLabels : List Label := [.S6, .S7, .S8, .S9, .S10, .S11]

def enableLabels : List Label := [.S12, .S13, .S14, .S15]

/-- The whole setup sequence, S1 to S16 (R144). -/
def setupLabels : List Label := resetLabels ++ configureLabels ++ enableLabels ++ [.S16]

def resetTable : Table := { labels := resetLabels, loopTo := none }

/-- `RESET_SEQ` (R141): S1 to S5; `READY <- 0` at acceptance. -/
def execResetSeq (s : State) : Out := runCommand .resetSeq [.notBound] resetTable State.clearReady s

def configureTable : Table := { labels := configureLabels, loopTo := none }

/-- `CONFIGURE_SEQ` (R142): S6 to S11. -/
def execConfigureSeq (s : State) : Out := runCommand .configureSeq [.notBound] configureTable id s

def enableTable : Table := { labels := enableLabels, loopTo := none }

/-- `ENABLE_SEQ` (R143): S12 to S15. -/
def execEnableSeq (s : State) : Out := runCommand .enableSeq [.notBound] enableTable id s

def setupTable : Table := { labels := setupLabels, loopTo := none }

/-- `SETUP` (R144): S1 to S16; `READY <- 0` at acceptance. -/
def execSetup (s : State) : Out := runCommand .setup [.notBound] setupTable State.clearReady s

end Sys2Proof.Machine
end

