-- ==== Sys2Proof/Machine/Scroll.lean ====
section
/-! DEFINITION. The frame-update and scroll commands (43_scroll_sequencer.md R181, R187 to R192). -/

namespace Sys2Proof.Machine

/-- The frame update, U1 to U6 (R187). -/
def updateLabels : List Label := [.U1, .U2, .U3, .U4, .U5, .U6]

/-- One tick: K1 to K3, the frame update, K4 (R189). -/
def tickLabels : List Label := [.K1, .K2, .K3] ++ updateLabels ++ [.K4]

def presentTable : Table := { labels := updateLabels, loopTo := none }

/-- `PRESENT` (R188). -/
def execPresent (s : State) : Out := runCommand .present [.notBound, .notReady] presentTable id s

def scrollInitTable : Table := { labels := [.I1], loopTo := none }

/-- `SCROLL_INIT` (R181). -/
def execScrollInit (s : State) : Out := runCommand .scrollInit [] scrollInitTable id s

def tickTable : Table := { labels := tickLabels, loopTo := none }

/-- `TICK` (R189). -/
def execTick (s : State) : Out := runCommand .tick [.notBound, .notReady] tickTable id s

def scrollTable : Table := { labels := .I1 :: tickLabels, loopTo := some .K1 }

/-- `SCROLL` (R191): I1, then ticks until one terminates. -/
def execScroll (s : State) : Out := runCommand .scroll [.notBound, .notReady] scrollTable id s

def runTable : Table := { labels := [.O1, .O2] ++ setupLabels ++ (.I1 :: tickLabels), loopTo := some .K1 }

/-- `RUN` (R192): open, bind, setup, then the scroll. -/
def execRun (s : State) : Out := runCommand .run [.alreadyOpen, .alreadyBound] runTable id s

end Sys2Proof.Machine
end

