-- ==== Sys2Proof/Machine/Wire.lean ====
section
/-! DEFINITION. The device's decode classes of a completed wire transfer (30_encoding.md R92). "Each row below is one
wire opcode, and its effect is 20_memory.md rule R66": each meaning applies its transfer to the device by R66. A class
term whose condition does not hold in the state is still a transfer, and R66 says what the device makes of it. -/

namespace Sys2Proof.Machine

/-- `XBANK` (R64, R92). -/
def execXbank (a v : Byte) (s : State) : Out := applyTransfer a [v] s

/-- `XMODE` (R92). -/
def execXmode (a v : Byte) (s : State) : Out := applyTransfer a [v] s

/-- `XFRAME` (R92). -/
def execXframe (a v : Byte) (s : State) : Out := applyTransfer a [v] s

/-- `XAUDIO` (R92). -/
def execXaudio (a v : Byte) (s : State) : Out := applyTransfer a [v] s

/-- `XSHUT` (R92). -/
def execXshut (a v : Byte) (s : State) : Out := applyTransfer a [v] s

/-- `XEN` (R92). -/
def execXen (a : Byte) (p : List Byte) (s : State) : Out := applyTransfer a p s

/-- `XCOL` (R92). -/
def execXcol (a : Byte) (p : List Byte) (s : State) : Out := applyTransfer a p s

/-- `XMIX` (R92). -/
def execXmix (a : Byte) (p : List Byte) (s : State) : Out := applyTransfer a p s

/-- `XCFGBLK` (R92). -/
def execXcfgblk (a : Byte) (p : List Byte) (s : State) : Out := applyTransfer a p s

/-- `XRESERVED` (R92, R220): the model fault of R66. A transfer to which R66 gives an effect is no `XRESERVED` (log 17). -/
def execXreserved (a : Byte) (p : List Byte) (s : State) : Out :=
  match transferFault s.params s.dev.banksel a p.length with
  | some f => .fault f
  | none => .refused .notReserved

end Sys2Proof.Machine
end

