-- ==== Sys2Proof/Machine/Dispatch.lean ====
section
/-! DEFINITION. The meaning of each instruction, one arm per row of spec/opcode_table.json. -/

namespace Sys2Proof.Machine

def exec (i : Instr) (s : State) : Host.Outcome State Fault Refusal :=
  match i with
  | .nop => Sys2Proof.Machine.execNop s
  | .openDev => Sys2Proof.Machine.execOpen s
  | .bindDev => Sys2Proof.Machine.execBind s
  | .writeReg a v => Sys2Proof.Machine.execWriteReg a v s
  | .writeBlock a d => Sys2Proof.Machine.execWriteBlock a d s
  | .selectBank b => Sys2Proof.Machine.execSelectBank b s
  | .writeConfig a v => Sys2Proof.Machine.execWriteConfig a v s
  | .resetSeq => Sys2Proof.Machine.execResetSeq s
  | .configureSeq => Sys2Proof.Machine.execConfigureSeq s
  | .enableSeq => Sys2Proof.Machine.execEnableSeq s
  | .setup => Sys2Proof.Machine.execSetup s
  | .loadFrame f => Sys2Proof.Machine.execLoadFrame f s
  | .map => Sys2Proof.Machine.execMap s
  | .present => Sys2Proof.Machine.execPresent s
  | .scrollInit => Sys2Proof.Machine.execScrollInit s
  | .tick => Sys2Proof.Machine.execTick s
  | .scroll => Sys2Proof.Machine.execScroll s
  | .run => Sys2Proof.Machine.execRun s
  | .reserved03 op => Sys2Proof.Machine.execReserved03 op s
  | .reserved14 op => Sys2Proof.Machine.execReserved14 op s
  | .reserved24 op => Sys2Proof.Machine.execReserved24 op s
  | .reserved33 op => Sys2Proof.Machine.execReserved33 op s
  | .reserved44 op => Sys2Proof.Machine.execReserved44 op s
  | .xbank a v => Sys2Proof.Machine.execXbank a v s
  | .xmode a v => Sys2Proof.Machine.execXmode a v s
  | .xframe a v => Sys2Proof.Machine.execXframe a v s
  | .xaudio a v => Sys2Proof.Machine.execXaudio a v s
  | .xshut a v => Sys2Proof.Machine.execXshut a v s
  | .xen a p => Sys2Proof.Machine.execXen a p s
  | .xcol a p => Sys2Proof.Machine.execXcol a p s
  | .xmix a p => Sys2Proof.Machine.execXmix a p s
  | .xcfgblk a p => Sys2Proof.Machine.execXcfgblk a p s
  | .xreserved a p => Sys2Proof.Machine.execXreserved a p s

end Sys2Proof.Machine
end

