-- ==== Sys2Proof/Machine/HostPort.lean ====
section
/-! DEFINITION. The host's side of a step: taking a command from the host's byte stream (30_encoding.md R93, R97), and
what ENV lets happen next (60_exceptions.md R231). -/

namespace Sys2Proof.Machine

/-- The state with the host's stream replaced. -/
def State.withStream (s : State) (bytes : List Byte) : State := { s with env := { s.env with stream := bytes } }

/-- The state with ENV's schedule replaced. -/
def State.withSched (s : State) (evs : List EnvEvent) : State := { s with env := { s.env with sched := evs } }

/-- The host issues its next command. A truncated one is refused and ends the stream (R97, log 16); one issued while
another executes is refused with `Busy` (R222). -/
def issueCommand (s : State) : Out :=
  match decode s.env.stream with
  | .error .endOfStream => .next s
  | .error .truncated => .next ((s.withStream []).refuse ((firstRefusal [.badOperand] s.ctrl).getD .badOperand))
  | .ok (i, rest) =>
    if s.ctrl.phase = .busy then .next ((s.withStream rest).refuse .busy)
    else exec i (s.withStream rest)

/-- The block moves: the executing command's next micro-step, else the host's next command. -/
def proceed (s : State) : Out :=
  if s.ctrl.phase = .busy then
    match s.ctrl.cmd with
    | some i => exec i s
    | none => .fault .noMicroStep
  else issueCommand s

/-- What ENV's schedule says comes next; when it is empty, the block moves (log 4). -/
def nextEvent (s : State) : Out :=
  match s.env.sched with
  | [] => proceed s
  | .proceed :: rest => proceed (s.withSched rest)
  | .attempt :: rest => issueCommand (s.withSched rest)
  | .blockReset :: rest => .next (s.withSched rest).blockReset
  | .deviceReset :: rest => .next (s.withSched rest).deviceReset

/-- The model refuses an ill-formed parameter set (00_scope.md R9, log 3). -/
def checkedEvent (s : State) : Out :=
  if wellFormedParams s.params then nextEvent s else .refused .illFormedParameters

/-- The state in which the host issues the table word's command next, before anything else happens (log 22). -/
def State.offer (s : State) (nbits w : Nat) : State :=
  { s with env := { s.env with
      stream := tableCommandBytes nbits w ++ s.env.stream
      sched := .attempt :: s.env.sched } }

end Sys2Proof.Machine
end

