-- ==== Sys2Proof/Machine/Step.lean ====
section
/-! DEFINITION. One step of the machine. -/

namespace Sys2Proof.Machine

/-- One step: what ENV lets happen next, for a well-formed parameter set. -/
def step (s : State) : Host.Outcome State Fault Refusal := checkedEvent s

/-- The state whose next step fetches and runs the command of a table word. -/
def State.withFetchWord (s : State) (nbits w : Nat) : State := s.offer nbits w

end Sys2Proof.Machine
end

