-- ==== Sys2Proof/Machine/Display.lean ====
section
/-! DEFINITION. What the display shows (10_state.md R39, R40). An observation of the state: no step reads it. -/

namespace Sys2Proof.Machine

open Sys2Proof.Config

/-- The configuration in which the display is defined, with the displayed bank (R40). -/
def displayedBank (s : State) : Option Nat :=
  if s.dev.shutdown == some shutdownOnValue && s.dev.mode == some s.params.pictureMode &&
      s.dev.audioSync == some audioSyncOffValue && !s.settlePending then
    if s.dev.frame == some 0 then some 0 else if s.dev.frame == some 1 then some 1 else none
  else none

/-- `disp(i)` (R40): `none` is R40's "any u8". -/
def disp (s : State) (i : Nat) : Option Byte :=
  match displayedBank s with
  | none => none
  | some f =>
    if i / 8 ≥ s.params.enableRegCount then some 0x00
    else
      match s.dev.enableByte f (i / 8) with
      | none => none
      | some e => if e.getLsbD (i % 8) then s.dev.colorByte f i else some 0x00

/-- The displayed pixel at logical (x, y) (R40). -/
def displayedPixel (s : State) (x y : Nat) : Option Byte := disp s (idx x y)

/-- The byte an observer sees in the `n`-th observation of LED `i`: a free value where R40 says "any u8" (log 9). -/
def observed (n : Nat) (s : State) (i : Nat) : Byte := (disp s i).getD (displayDraw n i)

end Sys2Proof.Machine
end

