-- ==== Sys2Proof/Safety.lean ====
section
/-! DEFINITION. What a safe run is: the invariants of the machine, and the words that claims about a command's
micro-steps use. -/

namespace Sys2Proof.Machine

open Sys2Proof.Config

/-! ### Words for claims -/

/-- The sequence of a host command that has micro-steps; NOP, LOAD_FRAME, reserved opcodes and the wire classes have
none (30_encoding.md R94). -/
def commandTable : Instr → Option Table
  | .openDev => some openTable
  | .bindDev => some bindTable
  | .writeReg _ _ => some writeTable
  | .writeBlock _ _ => some writeTable
  | .selectBank _ => some writeTable
  | .writeConfig _ _ => some configTable
  | .resetSeq => some resetTable
  | .configureSeq => some configureTable
  | .enableSeq => some enableTable
  | .setup => some setupTable
  | .map => some mapTable
  | .present => some presentTable
  | .scrollInit => some scrollInitTable
  | .tick => some tickTable
  | .scroll => some scrollTable
  | .run => some runTable
  | .nop | .loadFrame _ => none
  | .reserved03 _ | .reserved14 _ | .reserved24 _ | .reserved33 _ | .reserved44 _ => none
  | .xbank _ _ | .xmode _ _ | .xframe _ _ | .xaudio _ _ | .xshut _ _ => none
  | .xen _ _ | .xcol _ _ | .xmix _ _ | .xcfgblk _ _ | .xreserved _ _ => none

/-- The command `i` is executing, its next micro-step is `l`, and no call hangs. -/
abbrev State.runsAt (s : State) (i : Instr) (l : Label) : Prop :=
  s.ctrl.phase = .busy ∧ s.ctrl.cmd = some i ∧ s.ctrl.seqPc = some l ∧ s.env.hung = false

/-- `n` steps of the command `i`, stopping at the first fault or refusal. -/
def microRun (i : Instr) : Nat → State → Out
  | 0, s => .next s
  | n + 1, s =>
    match exec i s with
    | .next t => microRun i n t
    | .fault f => .fault f
    | .refused r => .refused r

/-- The transport answers `ok` to its next `n` calls. -/
abbrev State.answersOk (s : State) (n : Nat) : Prop := s.env.answers.take n = List.replicate n .ok

/-- The register of DEV that a target names. -/
def Dev.readTarget (d : Dev) : Target → Option Byte
  | .enable b j => d.enableByte b j
  | .color b i => d.colorByte b i
  | .mode => d.mode
  | .frame => d.frame
  | .audioSync => d.audioSync
  | .shutdown => d.shutdown

/-- A target that exists: frame banks 0 and 1, the enable bytes the device has, 144 colour bytes (10_state.md R38). -/
def Target.exists (c : Params) : Target → Bool
  | .enable b j => b < numFrameBanks && j < c.enableRegCount
  | .color b i => b < numFrameBanks && i < pbufLen
  | .mode | .frame | .audioSync | .shutdown => true

/-- The first micro-step of a command (40_bus_adapter.md, 41_setup_sequencer.md, 42_pixel_mapper.md and
43_scroll_sequencer.md, the commands' pseudocode); `none` for what has no micro-step. -/
def firstStep : Instr → Option Label
  | .openDev | .run => some .O1
  | .bindDev => some .O2
  | .writeReg _ _ | .writeBlock _ _ | .selectBank _ => some .W1
  | .writeConfig _ _ => some .C1
  | .resetSeq | .setup => some .S1
  | .configureSeq => some .S6
  | .enableSeq => some .S12
  | .map => some .M1
  | .present => some .U1
  | .scrollInit | .scroll => some .I1
  | .tick => some .K1
  | .nop | .loadFrame _ => none
  | .reserved03 _ | .reserved14 _ | .reserved24 _ | .reserved33 _ | .reserved44 _ => none
  | .xbank _ _ | .xmode _ _ | .xframe _ _ | .xaudio _ _ | .xshut _ _ => none
  | .xen _ _ | .xcol _ _ | .xmix _ _ | .xcfgblk _ _ | .xreserved _ _ => none

/-- The label a command goes to from one of its labels, `none` for its end: the "next" columns and phrases of R122 to
R127, R140 to R144, R169, R181, R187 to R192. -/
def nextLabel (i : Instr) : Label → Option Label
  | .O1 => if i = .run then some .O2 else none
  | .O2 => if i = .run then some .S1 else none
  | .W1 => none
  | .C1 => some .C2
  | .C2 => none
  | .S1 => some .S2
  | .S2 => some .S3
  | .S3 => some .S4
  | .S4 => some .S5
  | .S5 => if i = .resetSeq then none else some .S6
  | .S6 => some .S7
  | .S7 => some .S8
  | .S8 => some .S9
  | .S9 => some .S10
  | .S10 => some .S11
  | .S11 => if i = .configureSeq then none else some .S12
  | .S12 => some .S13
  | .S13 => some .S14
  | .S14 => some .S15
  | .S15 => if i = .enableSeq then none else some .S16
  | .S16 => if i = .run then some .I1 else none
  | .M1 => none
  | .I1 => if i = .scrollInit then none else some .K1
  | .U1 => some .U2
  | .U2 => some .U3
  | .U3 => some .U4
  | .U4 => some .U5
  | .U5 => some .U6
  | .U6 => if i = .present then none else some .K4
  | .K1 => some .K2
  | .K2 => some .K3
  | .K3 => some .U1
  | .K4 => if i = .tick then none else some .K1

/-- A reserved opcode (30_encoding.md R96). -/
def isReservedOpcode : Instr → Bool
  | .reserved03 _ | .reserved14 _ | .reserved24 _ | .reserved33 _ | .reserved44 _ => true
  | .nop | .openDev | .bindDev | .writeReg _ _ | .writeBlock _ _ | .selectBank _ | .writeConfig _ _ => false
  | .resetSeq | .configureSeq | .enableSeq | .setup | .loadFrame _ | .map | .present => false
  | .scrollInit | .tick | .scroll | .run => false
  | .xbank _ _ | .xmode _ _ | .xframe _ _ | .xaudio _ _ | .xshut _ _ => false
  | .xen _ _ | .xcol _ _ | .xmix _ _ | .xcfgblk _ _ | .xreserved _ _ => false

/-- Operands that R97 calls illegal: a block of no byte (or of a count that is no byte), a frame of a wrong length. -/
def illegalOperands : Instr → Bool
  | .writeBlock _ d => d.length == 0 || 255 < d.length
  | .loadFrame f => f.length != cells
  | .nop | .openDev | .bindDev | .writeReg _ _ | .selectBank _ | .writeConfig _ _ => false
  | .resetSeq | .configureSeq | .enableSeq | .setup | .map | .present => false
  | .scrollInit | .tick | .scroll | .run => false
  | .reserved03 _ | .reserved14 _ | .reserved24 _ | .reserved33 _ | .reserved44 _ => false
  | .xbank _ _ | .xmode _ _ | .xframe _ _ | .xaudio _ _ | .xshut _ _ => false
  | .xen _ _ | .xcol _ _ | .xmix _ _ | .xcfgblk _ _ | .xreserved _ _ => false

/-- The commands that reach the device through a bound transport: `NotBound`'s column of R222. -/
def needsBound : Instr → Bool
  | .writeReg _ _ | .writeBlock _ _ | .selectBank _ | .writeConfig _ _ => true
  | .resetSeq | .configureSeq | .enableSeq | .setup | .present | .tick | .scroll => true
  | .nop | .openDev | .bindDev | .loadFrame _ | .map | .scrollInit | .run => false
  | .reserved03 _ | .reserved14 _ | .reserved24 _ | .reserved33 _ | .reserved44 _ => false
  | .xbank _ _ | .xmode _ _ | .xframe _ _ | .xaudio _ _ | .xshut _ _ => false
  | .xen _ _ | .xcol _ _ | .xmix _ _ | .xcfgblk _ _ | .xreserved _ _ => false

/-- The commands that need a completed setup: `NotReady`'s column of R222. -/
def needsReady : Instr → Bool
  | .present | .tick | .scroll => true
  | .nop | .openDev | .bindDev | .writeReg _ _ | .writeBlock _ _ | .selectBank _ | .writeConfig _ _ => false
  | .resetSeq | .configureSeq | .enableSeq | .setup | .loadFrame _ | .map | .scrollInit | .run => false
  | .reserved03 _ | .reserved14 _ | .reserved24 _ | .reserved33 _ | .reserved44 _ => false
  | .xbank _ _ | .xmode _ _ | .xframe _ _ | .xaudio _ _ | .xshut _ _ => false
  | .xen _ _ | .xcol _ _ | .xmix _ _ | .xcfgblk _ _ | .xreserved _ _ => false

/-- R222's table, row by row in its order: the reason, and when the row's check applies to a command and fails. -/
def refusalTable : List (Reason × (Instr → Ctrl → Bool)) :=
  [ (.terminal, fun _ c => c.phase == .done || c.phase == .failed),
    (.busy, fun _ c => c.phase == .busy),
    (.badOpcode, fun i _ => isReservedOpcode i),
    (.badOperand, fun i _ => illegalOperands i),
    (.alreadyOpen, fun i c => (i == .openDev || i == .run) && c.opened == 1),
    (.notOpen, fun i c => i == .bindDev && c.opened == 0),
    (.alreadyBound, fun i c => (i == .bindDev || i == .run) && c.bound == 1),
    (.notBound, fun i c => needsBound i && c.bound == 0),
    (.notReady, fun i c => needsReady i && c.ready == 0) ]

/-- The reason of the first row of R222 whose check fails. -/
def firstFailing (i : Instr) (c : Ctrl) : Option Reason :=
  (refusalTable.find? fun row => row.2 i c).map Prod.fst

/-- The command passes every check of R222, and no transport call of an earlier run is outstanding. -/
abbrev State.admits (s : State) (i : Instr) : Prop := firstFailing i s.ctrl = none ∧ s.env.hung = false

/-- The event is a call of the transport, which takes one answer. -/
def BusEvent.isCall : BusEvent → Bool
  | .openCall _ _ | .bindCall _ _ | .transfer _ _ => true
  | .wait _ => false

/-- ENV after outputs of the block, oldest first. -/
def Env.emitted (e : Env) (evs : List BusEvent) : Env :=
  { e with
    answers := e.answers.drop (evs.countP BusEvent.isCall)
    draws := e.draws + evs.countP BusEvent.isCall
    trace := evs.reverse ++ e.trace }

/-- ENV after an accepted command whose outputs were `evs`, oldest first. -/
def Env.commanded (e : Env) (evs : List BusEvent) : Env := { e.emitted evs with reply := some .accepted }

/-- A transfer that returned `ok`. -/
abbrev sent (bytes : List Byte) : BusEvent := .transfer bytes .ok

/-- The outputs of S1 to S5, the table of 41_setup_sequencer.md R140. -/
def resetEvents (c : Params) : List BusEvent :=
  [sent [c.bankRegister, c.configBank], sent [c.shutdownRegister, 0x00], .wait 10,
   sent [c.bankRegister, c.configBank], sent [c.shutdownRegister, 0x01]]

/-- The outputs of S6 to S11 (R140). -/
def configureEvents (c : Params) : List BusEvent :=
  [sent [c.bankRegister, c.configBank], sent [c.frameRegister, 0x00],
   sent [c.bankRegister, c.configBank], sent [c.modeRegister, c.pictureMode],
   sent [c.bankRegister, c.configBank], sent [c.audioSyncRegister, 0x00]]

/-- The outputs of S12 to S15 (R140). -/
def enableEvents (c : Params) : List BusEvent :=
  [sent [c.bankRegister, 0x00], sent (c.enableBase :: List.replicate 17 0xFF),
   sent [c.bankRegister, 0x01], sent (c.enableBase :: List.replicate 17 0xFF)]

/-- The outputs of U2 to U5 (43_scroll_sequencer.md R187) for an active bank and the 144 bytes of a buffer. -/
def updateEvents (c : Params) (active : Byte) (bytes : List Byte) : List BusEvent :=
  [sent [c.bankRegister, active], sent (c.colorBase :: bytes),
   sent [c.bankRegister, c.configBank], sent [c.frameRegister, active]]

/-- The outputs of tick `m` of a scroll that starts at I1 and does not end in that tick (43_scroll_sequencer.md R187,
R189): the text at cursor `17 - m` goes to bank `(m - 1) mod 2` (R193), and the interval's wait follows. -/
def tickEvents (c : Params) (m : Nat) : List BusEvent :=
  updateEvents c (BitVec.ofNat 8 ((m - 1) % 2)) (bufferBytes (mapFrame (render c (17 - m)).1)) ++ [.wait 100]

/-- The device is configured to show frames (10_state.md R40; 41_setup_sequencer.md R148): running, picture mode, no
audio sync, and both banks' seventeen enable bytes all ones. -/
structure Configured (s : State) : Prop where
  shutdown : s.dev.shutdown = some 0x01
  mode : s.dev.mode = some s.params.pictureMode
  audioSync : s.dev.audioSync = some 0x00
  settled : s.settlePending = false
  enabled : ∀ b < 2, ∀ j < 17, s.dev.enableByte b j = some 0xFF

/-! ### Invariants -/

/-- Every buffer and device array is in canonical form, and lists no key outside its space (20_memory.md R60, R62). -/
structure CanonicalMemories (s : State) : Prop where
  lframe_wf : Memory.wf (0 : Byte) s.ctrl.lframe = true
  pbuf_wf : Memory.wf (0 : Byte) s.ctrl.pbuf = true
  en_wf : Memory.wf (some (0 : Byte)) s.dev.en = true
  col_wf : Memory.wf (none : Option Byte) s.dev.col = true
  lframe_keys : ∀ cell ∈ s.ctrl.lframe, cell.1 < cells
  pbuf_keys : ∀ cell ∈ s.ctrl.pbuf, cell.1 < pbufLen
  en_keys : ∀ cell ∈ s.dev.en, cell.1 / 256 < numFrameBanks ∧ cell.1 % 256 < s.params.enableRegCount
  col_keys : ∀ cell ∈ s.dev.col, cell.1 / 256 < numFrameBanks ∧ cell.1 % 256 < pbufLen

/-- `CAUSE` and `CAUSE_INNER` of an error raised at a label, R211's table; `none` where none is raised. -/
def causeAt : Label → Option (Byte × Byte)
  | .O1 => some (0x01, 0x00)
  | .O2 => some (0x02, 0x00)
  | .W1 | .C1 | .C2 | .U2 | .U3 | .U4 | .U5 => some (0x03, 0x00)
  | .S1 | .S2 | .S4 | .S5 | .S6 | .S7 | .S8 | .S9 | .S10 | .S11 | .S12 | .S13 | .S14 | .S15 => some (0x04, 0x03)
  | .S3 | .S16 | .M1 | .I1 | .U1 | .U6 | .K1 | .K2 | .K3 | .K4 => none

/-- The step of the command is one that only a bound transport reaches. -/
def needsHandle (i : Instr) (l : Label) : Bool :=
  l != .O1 && l != .O2 && l != .M1 && !(l == .I1 && i == .scrollInit)

/-- CTRL's status registers agree with each other (10_state.md R23, R24, R26, R32, R33; 60_exceptions.md R211, R219). -/
structure ControlConsistent (s : State) : Prop where
  busy_iff_step : s.ctrl.phase = .busy ↔ s.ctrl.seqPc ≠ none
  step_of_command : ∀ l, s.ctrl.seqPc = some l →
    ∃ i t, s.ctrl.cmd = some i ∧ commandTable i = some t ∧ l ∈ t.labels
  exit_of_phase : s.ctrl.exit =
    match s.ctrl.phase with
    | .idle | .busy => none
    | .done => some successExitCode
    | .failed => some s.params.failExitCode
  no_cause : s.ctrl.phase ≠ .failed →
    s.ctrl.cause = 0x00 ∧ s.ctrl.causeInner = 0x00 ∧ s.ctrl.causeStep = none
  cause_of_failure : s.ctrl.phase = .failed →
    ∃ l, s.ctrl.causeStep = some l ∧ causeAt l = some (s.ctrl.cause, s.ctrl.causeInner)
  opened_of_bound : s.ctrl.bound = 1 → s.ctrl.opened = 1
  bound_of_ready : s.ctrl.ready = 1 → s.ctrl.bound = 1
  opened_at_bind : s.ctrl.seqPc = some .O2 → s.ctrl.opened = 1
  bound_at_step : ∀ i l, s.ctrl.cmd = some i → s.ctrl.seqPc = some l → needsHandle i l = true → s.ctrl.bound = 1
  busy_of_hung : s.env.hung = true → s.ctrl.phase = .busy

/-! ### What a step does to CTRL (10_state.md R22 to R24) -/

/-- A command executes and its next micro-step is `l`. -/
abbrev State.standsAt (s : State) (l : Label) : Prop := s.ctrl.phase = .busy ∧ s.ctrl.seqPc = some l

/-- The step from `s` to `w` takes the host's next command `i`, which passes every check of R222, in `IDLE`. -/
structure Admitted (s w : State) (i : Instr) : Prop where
  idle : s.ctrl.phase = .idle
  taken : decode s.env.stream = .ok (i, w.env.stream)
  passes : firstFailing i s.ctrl = none

/-- The step accepts the command `i`, which has micro-steps (30_encoding.md R94). -/
structure Accepted (s w : State) (i : Instr) : Prop extends Admitted s w i where
  cmd : w.ctrl.cmd = some i
  busy : w.ctrl.phase = .busy
  first : ∃ l, firstStep i = some l ∧ w.ctrl.seqPc = some l

/-- The step is the micro-step `l` of the command `i`, which goes to the next label of its table or ends (R24). -/
structure Sequenced (s w : State) (i : Instr) (l : Label) : Prop where
  stands : s.standsAt l
  cmd : s.ctrl.cmd = some i
  next : w.ctrl.seqPc = nextLabel i l
  phase : w.ctrl.phase = if nextLabel i l = none then .idle else .busy

/-- The step ends the scroll with success at K3 (43_scroll_sequencer.md R189). -/
structure Finished (s w : State) : Prop where
  stands : s.standsAt .K3
  done : w.ctrl.phase = .done
  exit : w.ctrl.exit = some 0
  seqPc : w.ctrl.seqPc = none

/-- The step raises R211's error of label `l` (60_exceptions.md R215). -/
structure Raised (s w : State) (l : Label) : Prop where
  stands : s.standsAt l
  failed : w.ctrl.phase = .failed
  cause : causeAt l = some (w.ctrl.cause, w.ctrl.causeInner)
  step : w.ctrl.causeStep = some l
  exit : w.ctrl.exit = some s.params.failExitCode
  seqPc : w.ctrl.seqPc = none

/-! ### Invariants of the sequences -/

/-- The bank that a bank-relative transfer of the fixed sequences is meant for (70_reset_and_hazards.md R244). -/
def bankNeeded (s : State) : Label → Option Byte
  | .S2 | .S5 | .S7 | .S9 | .S11 | .U5 | .C2 => some s.params.configBank
  | .S13 => some 0x00
  | .S15 => some 0x01
  | .U3 => some (activeByte s)
  | .O1 | .O2 | .W1 | .C1 | .S1 | .S3 | .S4 | .S6 | .S8 | .S10 | .S12 | .S14 | .S16 => none
  | .M1 | .I1 | .U1 | .U2 | .U4 | .U6 | .K1 | .K2 | .K3 | .K4 => none

/-- The selected bank is the one the next transfer is meant for. -/
def BankSelected (s : State) : Prop :=
  ∀ l b, s.ctrl.seqPc = some l → bankNeeded s l = some b → s.dev.banksel = some b

/-- `OFFSET` and `TEXTW` stay where no s32 arithmetic of the scroll wraps (00_scope.md R10, R11; 43_scroll_sequencer.md
R189, R190). -/
structure ScrollInRange (s : State) : Prop where
  text_fits : textFits s.params = true
  textw_nonneg : 0 ≤ s.ctrl.textw.toInt
  textw_le : s.ctrl.textw.toInt ≤ textWidth s.params
  offset_le : s.ctrl.offset.toInt ≤ 0
  offset_ge : -(18 + (textWidth s.params : Int)) ≤ s.ctrl.offset.toInt
  offset_between_ticks : s.ctrl.phase ≠ .done → s.ctrl.seqPc ≠ some .K2 → s.ctrl.seqPc ≠ some .K3 →
    -(17 + (textWidth s.params : Int)) ≤ s.ctrl.offset.toInt

end Sys2Proof.Machine
end

