-- ==== Sys2Proof/Certificates/Slice0/Obligations.lean ====
section
/-! DEFINITION. The statements for the provers. Each docstring names the rules of spec/ that the statement rests on; where
a clause is the model's own choice it names the log entry. -/

section Statements

open Sys2Proof Sys2Proof.Config Sys2Proof.Machine

/-! ### Encodings (30_encoding.md) -/

/-- Decoding the bytes of a well-formed host command gives the command back, with every operand, and leaves what
follows it (R93, R95, R96). -/
def Obligations.HostCommandRoundTrip : Prop :=
  ∀ (c : Params) (i : Instr) (rest : List Byte), isHostCommand i = true → wellFormed c i = true →
    decode (encode i ++ rest) = .ok (i, rest)

/-- Whatever the decoder reads, its encoding is exactly the bytes it took, and the command is well formed but for a
block of count 0 (R93, R95 to R97). -/
def Obligations.HostStreamReencodes : Prop :=
  ∀ (c : Params) (bytes rest : List Byte) (i : Instr), decode bytes = .ok (i, rest) →
    bytes = encode i ++ rest ∧ (wellFormed c i = true ∨ ∃ a, i = .writeBlock a [])

/-- No proper nonempty beginning of a command's bytes decodes: the stream ends inside the command (R93, R97). -/
def Obligations.TruncatedCommandIsNoCommand : Prop :=
  ∀ (c : Params) (i : Instr) (k : Nat), isHostCommand i = true → wellFormed c i = true → 0 < k →
    k < (encode i).length → decode ((encode i).take k) = .error .truncated

/-- The device's decoder gives a wire class back from its bytes, for every class of R92 but "anything else", whenever
the bank the class needs is selected (R90, R92). -/
def Obligations.WireClassRoundTrip : Prop :=
  ∀ (c : Params) (sel : Option Byte) (i : Instr), wellFormedParams c = true → isHostCommand i = false →
    classApplies c sel i = true → (∀ a p, i ≠ .xreserved a p) → decodeWire c sel (encode i) = some i

/-- A transfer is of R92's class "anything else" exactly when R66 gives it no meaning (R66, R92). -/
def Obligations.ReservedClassIsModelFault : Prop :=
  ∀ (c : Params) (sel : Option Byte) (a : Byte) (p : List Byte), wellFormedParams c = true → p ≠ [] →
    (wireClass c sel a p = .xreserved a p ↔ (transferFault c sel a p.length).isSome = true)

/-- Words written out from the spec's encodings decode to what they stand for: one of each family and of each reserved
range (R95, R96; 95_test_vectors.md N1 to N9), and one transfer of each class of R92, at R8's defaults but for `XMIX`: no
transfer mixes the two areas there, so its transfer is taken with `COLOR_BASE` right behind the enable area. -/
def Obligations.SpecWordsDecode : Prop :=
  decode [0x00] = .ok (.nop, []) ∧ decode [0x10, 0x0A, 0x01] = .ok (.writeReg 0x0A 0x01, []) ∧
  decode [0x11, 0x24, 0x03, 0xAA, 0xBB, 0xCC] = .ok (.writeBlock 0x24 [0xAA, 0xBB, 0xCC], []) ∧
  decode [0x12, 0x01] = .ok (.selectBank 0x01, []) ∧ decode [0x13, 0x01, 0x02] = .ok (.writeConfig 0x01 0x02, []) ∧
  decode [0x23] = .ok (.setup, []) ∧ decode [0x31] = .ok (.map, []) ∧ decode [0x43] = .ok (.run, []) ∧
  decode [0x0F] = .ok (.reserved03 0x0F, []) ∧ decode [0x14] = .ok (.reserved14 0x14, []) ∧
  decode [0x24] = .ok (.reserved24 0x24, []) ∧ decode [0x33] = .ok (.reserved33 0x33, []) ∧
  decode [0x44] = .ok (.reserved44 0x44, []) ∧
  decodeWire defaultParams none [0xFD, 0x0B] = some (.xbank 0xFD 0x0B) ∧
  decodeWire defaultParams (some 0x0B) [0x00, 0x18] = some (.xmode 0x00 0x18) ∧
  decodeWire defaultParams (some 0x0B) [0x01, 0x00] = some (.xframe 0x01 0x00) ∧
  decodeWire defaultParams (some 0x0B) [0x06, 0x00] = some (.xaudio 0x06 0x00) ∧
  decodeWire defaultParams (some 0x0B) [0x0A, 0x01] = some (.xshut 0x0A 0x01) ∧
  decodeWire defaultParams (some 0x00) [0x10, 0xAA, 0xBB] = some (.xen 0x10 [0xAA, 0xBB]) ∧
  decodeWire defaultParams (some 0x01) [0x24, 0xFF] = some (.xcol 0x24 [0xFF]) ∧
  decodeWire { defaultParams with colorBase := 0x12 } (some 0x00) [0x11, 0xAA, 0xBB] = some (.xmix 0x11 [0xAA, 0xBB]) ∧
  decodeWire defaultParams (some 0x0B) [0x00, 0x00, 0x01] = some (.xcfgblk 0x00 [0x00, 0x01]) ∧
  decodeWire defaultParams (some 0x00) [0x11, 0x01, 0x02] = some (.xreserved 0x11 [0x01, 0x02])

/-! ### The device's address map and its transfers (20_memory.md) -/

/-- A frame bank's addresses are the enable area and the colour area, the config bank's are its four registers, and no
other address of these banks is defined (R62, R63). -/
def Obligations.BankAddressMaps : Prop :=
  ∀ c : Params, wellFormedParams c = true →
    (∀ b : Byte, b = 0 ∨ b = 1 → ∀ (n : Nat) (t : Target), target c b n = some t ↔
      (∃ j < c.enableRegCount, n = c.enableBase.toNat + j ∧ t = .enable b.toNat j) ∨
      (∃ i < 144, n = c.colorBase.toNat + i ∧ t = .color b.toNat i)) ∧
    ∀ (n : Nat) (t : Target), target c c.configBank n = some t ↔
      (n = c.modeRegister.toNat ∧ t = .mode) ∨ (n = c.frameRegister.toNat ∧ t = .frame) ∨
      (n = c.audioSyncRegister.toNat ∧ t = .audioSync) ∨ (n = c.shutdownRegister.toNat ∧ t = .shutdown)

/-- `XBANK`: a one-byte write to the bank register sets `DEV.BANKSEL`, whatever bank is selected, and changes nothing
else (R64, R92). -/
def Obligations.BankRegisterIsGlobal : Prop :=
  ∀ (s : State) (v : Byte),
    exec (.xbank s.params.bankRegister v) s = .next { s with dev := { s.dev with banksel := some v } }

/-- `XMODE`, `XFRAME`, `XAUDIO` and `XSHUT`: with the config bank selected, a one-byte write stores the byte in the
register and changes nothing else, but that 0x00 in the shutdown register sets `SETTLE_PENDING` at any label other than S2
(R37, R66, R92, R245). -/
def Obligations.ConfigClassesStore : Prop :=
  ∀ (s : State) (v : Byte), wellFormedParams s.params = true → s.dev.banksel = some s.params.configBank →
    exec (.xmode s.params.modeRegister v) s = .next { s with dev := { s.dev with mode := some v } } ∧
    exec (.xframe s.params.frameRegister v) s = .next { s with dev := { s.dev with frame := some v } } ∧
    exec (.xaudio s.params.audioSyncRegister v) s = .next { s with dev := { s.dev with audioSync := some v } } ∧
    exec (.xshut s.params.shutdownRegister v) s =
      .next { s with
        dev := { s.dev with shutdown := some v }
        settlePending := s.settlePending || (v == 0x00 && s.ctrl.seqPc != some .S2) }

/-- `XEN`, `XCOL`, `XMIX` and `XCFGBLK`: payload byte k lands in the register that address `A + k` of the selected bank
names; every other register of the device, the selected bank, CTRL and ENV keep their values (R66, R67, R92, R245). -/
def Obligations.BlockClassesStore : Prop :=
  ∀ (s : State) (i : Instr) (a b : Byte) (p : List Byte), wellFormedParams s.params = true →
    i ∈ [Instr.xen a p, .xcol a p, .xmix a p, .xcfgblk a p] → classApplies s.params (some b) i = true →
    s.dev.banksel = some b →
    ∃ w, exec i s = .next w ∧
      (∀ k v, p[k]? = some v → ∃ t, target s.params b (a.toNat + k) = some t ∧ w.dev.readTarget t = some v) ∧
      (∀ t, t.exists s.params = true → (∀ k < p.length, target s.params b (a.toNat + k) ≠ some t) →
        w.dev.readTarget t = s.dev.readTarget t) ∧
      (w.settlePending = true ↔ s.settlePending = true ∨ (s.ctrl.seqPc ≠ some .S2 ∧
        ∃ k, p[k]? = some 0x00 ∧ target s.params b (a.toNat + k) = some .shutdown)) ∧
      w.dev.banksel = s.dev.banksel ∧ w.ctrl = s.ctrl ∧ w.env = s.env ∧ w.params = s.params

/-- `XRESERVED` never answers a next state, and R220's five reasons stop it in R66's order (R66, R220). A term of this class
whose transfer R66 gives an effect is of another class by R92, and that it stops too is the model's choice (log 17). -/
def Obligations.ReservedTransferStops : Prop :=
  ∀ (s : State) (a : Byte) (p : List Byte), p ≠ [] →
    (∀ w, exec (.xreserved a p) s ≠ .next w) ∧
    (a = s.params.bankRegister → p.length ≠ 1 → exec (.xreserved a p) s = .fault .bankRegisterBlock) ∧
    (a ≠ s.params.bankRegister →
      (s.dev.banksel = none → exec (.xreserved a p) s = .fault .bankUnknown) ∧
      ∀ b, s.dev.banksel = some b →
        (b ≠ 0 → b ≠ 1 → b ≠ s.params.configBank → exec (.xreserved a p) s = .fault .unmodelledBank) ∧
        (b = 0 ∨ b = 1 ∨ b = s.params.configBank →
          (0xFF < a.toNat + p.length - 1 → exec (.xreserved a p) s = .fault .addressOverflow) ∧
          (a.toNat + p.length - 1 ≤ 0xFF → (∃ k < p.length, target s.params b (a.toNat + k) = none) →
            exec (.xreserved a p) s = .fault .undefinedRegister)))

/-! ### A transfer micro-step (40_bus_adapter.md R130, 60_exceptions.md) -/

/-- A transfer micro-step whose call returns `ok` does what the device's decode class of its bytes does, and the
sequence goes on; S5 then clears `SETTLE_PENDING` (R92, R121, R130, R245). -/
def Obligations.TransferStepRunsWireClass : Prop :=
  ∀ (s : State) (i : Instr) (t : Table) (l : Label) (a : Byte) (p : List Byte), wellFormedParams s.params = true →
    commandTable i = some t → l ∈ t.labels → s.runsAt i l → labelAction s l = some (.xfer a p) →
    s.env.nextAnswer = .ok →
    exec i s =
      match exec (wireClass s.params s.dev.banksel a p) (s.takeAnswer (.transfer (a :: p) .ok)) with
      | .next w =>
        .next ((if l = .S5 then { w with settlePending := false } else w).goto (nextLabel i l))
      | .fault f => .fault f
      | .refused r => .refused r

/-- A transfer that returns `err` enters `FAILED` with the cause, the inner cause and the label of R211's table, the
failure's exit code and no next label; no other register of CTRL changes (R211, R214, R215, R216). -/
def Obligations.FailedTransferRaises : Prop :=
  ∀ (s : State) (i : Instr) (t : Table) (l : Label) (a : Byte) (p : List Byte),
    commandTable i = some t → l ∈ t.labels → s.runsAt i l → labelAction s l = some (.xfer a p) →
    s.env.nextAnswer = .err → transferFault s.params s.dev.banksel a p.length = none →
    ∃ w cause inner, exec i s = .next w ∧ causeAt l = some (cause, inner) ∧
      w.ctrl = { s.ctrl with
        cause := cause
        causeInner := inner
        causeStep := some l
        seqPc := none
        phase := .failed
        exit := some s.params.failExitCode } ∧
      w.env = (s.takeAnswer (.transfer (a :: p) .err)).env ∧ w.params = s.params

/-- A transfer that returns `err` leaves every byte it addresses unknown: `DEV.BANKSEL` for a bank select, else the
registers its addresses name; every other register of the device keeps its value (R72). `SETTLE_PENDING`, which is no
register of the device, keeps its value too: only a completed transfer sets it or S5's completion clears it (R245, as log 14
deduces). -/
def Obligations.FailedTransferHavoc : Prop :=
  ∀ (s : State) (i : Instr) (t : Table) (l : Label) (a : Byte) (p : List Byte), wellFormedParams s.params = true →
    commandTable i = some t → l ∈ t.labels → s.runsAt i l → labelAction s l = some (.xfer a p) →
    s.env.nextAnswer = .err → transferFault s.params s.dev.banksel a p.length = none →
    ∃ w, exec i s = .next w ∧ w.settlePending = s.settlePending ∧
      (a = s.params.bankRegister → w.dev = { s.dev with banksel := none }) ∧
      (a ≠ s.params.bankRegister → w.dev.banksel = s.dev.banksel ∧
        ∀ b, s.dev.banksel = some b →
          (∀ k < p.length, ∃ u, target s.params b (a.toNat + k) = some u ∧ w.dev.readTarget u = none) ∧
          (∀ u, u.exists s.params = true → (∀ k < p.length, target s.params b (a.toNat + k) ≠ some u) →
            w.dev.readTarget u = s.dev.readTarget u))

/-- A transfer to which R66 gives no meaning is a model fault whether its call returned `ok` or `err` (R66, R72, R217). -/
def Obligations.ModelFaultBeforeError : Prop :=
  ∀ (s : State) (i : Instr) (t : Table) (l : Label) (a : Byte) (p : List Byte) (f : Fault),
    commandTable i = some t → l ∈ t.labels → s.runsAt i l → labelAction s l = some (.xfer a p) →
    s.env.nextAnswer ≠ .hang → transferFault s.params s.dev.banksel a p.length = some f →
    exec i s = .fault f

/-- A call that never returns leaves the command at its label for any number of steps: CTRL, DEV and the parameters
keep their values, and no further call is made (R217, R227). That the answer is taken and recorded is log 6. -/
def Obligations.HangStops : Prop :=
  ∀ (s : State) (i : Instr) (t : Table) (l : Label) (act : Action) (n : Nat),
    commandTable i = some t → l ∈ t.labels → s.runsAt i l → labelAction s l = some act →
    act = .openNode ∨ act = .bindAddress ∨ (∃ a p, act = .xfer a p) → s.env.nextAnswer = .hang →
    ∃ w ev, microRun i (n + 1) s = .next w ∧ w = { s with env := (s.takeAnswer ev).hang.env }

/-! ### Acceptance and refusal of host commands (30_encoding.md R94, 60_exceptions.md R222) -/

/-- A host command that is not the executing one is refused by the first failing row of R222's table, and nothing but
the host's answer changes (R222; that the answer is recorded is log 1). -/
def Obligations.RefusedByFirstFailingCheck : Prop :=
  ∀ (s : State) (i : Instr) (r : Reason), isHostCommand i = true → s.executing i = false →
    firstFailing i s.ctrl = some r → exec i s = .next { s with env := { s.env with reply := some (.refused r) } }

/-- A command with micro-steps that passes its checks is stored in `CMD`, sets `PHASE` to `BUSY` and `SEQ_PC` to its
first label; RESET_SEQ and SETUP clear `READY`; nothing else changes but the host's recorded answer (R94, R141, R144; the
recorded answer is log 1). -/
def Obligations.AcceptanceEntersSequence : Prop :=
  ∀ (s : State) (i : Instr) (l : Label), firstStep i = some l → firstFailing i s.ctrl = none →
    exec i s = .next { s with
      ctrl := { s.ctrl with
        cmd := some i
        phase := .busy
        seqPc := some l
        ready := if i = .resetSeq ∨ i = .setup then 0 else s.ctrl.ready }
      env := { s.env with reply := some .accepted } }

/-- `NOP` from `IDLE` is accepted and leaves CTRL and DEV unchanged; a reserved opcode issued in `IDLE` is refused
with `BadOpcode` and changes no state (R96, R98, R131, R222; the recorded answer is log 1). That NOP does not write
`CMD` is log 11. -/
def Obligations.NopAndReservedOpcodesChangeNothing : Prop :=
  ∀ s : State, s.ctrl.phase = .idle →
    exec .nop s = .next { s with env := { s.env with reply := some .accepted } } ∧
    ∀ op : Byte, ∀ i ∈ [Instr.reserved03 op, .reserved14 op, .reserved24 op, .reserved33 op, .reserved44 op],
      exec i s = .next { s with env := { s.env with reply := some (.refused .badOpcode) } }

/-- `LOAD_FRAME f` from `IDLE` sets cell (x, y) to byte `17*y + x` of its operand, for every cell, and nothing else:
`PHASE` stays `IDLE` and `PBUF` is not recomputed (R30, R168; the recorded answer is log 1). That `CMD` is not written
is log 11. -/
def Obligations.LoadFrameStores : Prop :=
  ∀ (s : State) (f : List Byte), s.ctrl.phase = .idle → f.length = 119 →
    ∃ lf, exec (.loadFrame f) s = .next { s with
        ctrl := { s.ctrl with lframe := lf }
        env := { s.env with reply := some .accepted } } ∧
      ∀ x < 17, ∀ y < 7, some (frameCell lf x y) = f[17 * y + x]?

/-- `DONE` and `FAILED` accept no command: each is refused with `Terminal`, and no step but the block reset leaves them
or changes any register of CTRL (R23, R218, R240). -/
def Obligations.OnlyBlockResetLeavesTerminal : Prop :=
  ∀ s : State, s.ctrl.phase = .done ∨ s.ctrl.phase = .failed →
    (∀ i, isHostCommand i = true →
      exec i s = .next { s with env := { s.env with reply := some (.refused .terminal) } }) ∧
    ∀ w, step s = .next w →
      w.ctrl = s.ctrl ∨ (w.ctrl = Ctrl.reset ∧ ∃ rest, s.env.sched = .blockReset :: rest)

/-! ### The sequencer (10_state.md R24) -/

/-- Every micro-step of every command answers a next state when its call is answered `ok`, R66 accepts its bytes and
K3 does not terminate; the command goes to the next label of its table, or ends in `IDLE` (R24, R94, R130). That S16
is a micro-step is log 12, and that `CMD` keeps the command after its end log 11. -/
def Obligations.MicroStepCompletes : Prop :=
  ∀ (s : State) (i : Instr) (t : Table) (l : Label), commandTable i = some t → l ∈ t.labels → s.runsAt i l →
    s.env.nextAnswer = .ok →
    (∀ a p, labelAction s l = some (.xfer a p) → transferFault s.params s.dev.banksel a p.length = none) →
    (l = .K3 → scrolledOut s.ctrl = false) →
    ∃ w, exec i s = .next w ∧ w.ctrl.seqPc = nextLabel i l ∧
      w.ctrl.phase = (if nextLabel i l = none then .idle else .busy) ∧ w.ctrl.cmd = some i

/-- O1 in OPEN and RUN: `ok` sets `OPENED`, `err` raises `DeviceOpenError`. O2 in BIND and RUN: `ok` sets `BOUND`, and
in RUN clears `READY` on the way to S1 (log 13), `err` raises `AddressBindError`. No device state changes (R122, R123,
R192, R211, R212, R213, R215). That `CMD` keeps the command after its end is log 11. -/
def Obligations.OpenAndBindStepOutcomes : Prop :=
  ∀ (s : State) (i : Instr),
    (i = .openDev ∨ i = .run → s.runsAt i .O1 →
      (s.env.nextAnswer = .ok →
        exec i s = .next { s with
          ctrl := { s.ctrl with
            opened := 1
            phase := if i = .run then .busy else .idle
            seqPc := if i = .run then some .O2 else none }
          env := (s.takeAnswer (.openCall s.params.devicePath .ok)).env }) ∧
      (s.env.nextAnswer = .err →
        exec i s = .next { s with
          ctrl := { s.ctrl with
            cause := 0x01, causeInner := 0x00, causeStep := some .O1, seqPc := none, phase := .failed
            exit := some s.params.failExitCode }
          env := (s.takeAnswer (.openCall s.params.devicePath .err)).env })) ∧
    (i = .bindDev ∨ i = .run → s.runsAt i .O2 →
      (s.env.nextAnswer = .ok →
        exec i s = .next { s with
          ctrl := { s.ctrl with
            bound := 1
            ready := if i = .run then 0 else s.ctrl.ready
            phase := if i = .run then .busy else .idle
            seqPc := if i = .run then some .S1 else none }
          env := (s.takeAnswer (.bindCall s.params.deviceAddress .ok)).env }) ∧
      (s.env.nextAnswer = .err →
        exec i s = .next { s with
          ctrl := { s.ctrl with
            cause := 0x02, causeInner := 0x00, causeStep := some .O2, seqPc := none, phase := .failed
            exit := some s.params.failExitCode }
          env := (s.takeAnswer (.bindCall s.params.deviceAddress .err)).env }))

/-! ### Whole commands with a transport that answers `ok` -/

/-- `OPEN`, and `BIND`, each from acceptance to `IDLE`: `OPENED`, and `BOUND`, is set, and DEV is untouched (R122,
R123). That `CMD` keeps the command after its end is log 11, the recorded answer log 1. -/
def Obligations.OpenAndBindComplete : Prop :=
  ∀ s : State, s.answersOk 1 →
    (s.admits .openDev →
      microRun .openDev 2 s = .next { s with
        ctrl := { s.ctrl with cmd := some .openDev, seqPc := none, opened := 1 }
        env := s.env.commanded [.openCall s.params.devicePath .ok] }) ∧
    (s.admits .bindDev →
      microRun .bindDev 2 s = .next { s with
        ctrl := { s.ctrl with cmd := some .bindDev, seqPc := none, bound := 1 }
        env := s.env.commanded [.bindCall s.params.deviceAddress .ok] })

/-- `SELECT_BANK b`, and WRITE_REG and a one-byte WRITE_BLOCK to the bank register, from acceptance to `IDLE`: one
transfer, and `DEV.BANKSEL` holds `b`, whatever it held before (R64, R124, R125, R126, R128). That `CMD` keeps the
command after its end is log 11, the recorded answer log 1. -/
def Obligations.BankSelectsComplete : Prop :=
  ∀ (s : State) (b : Byte), s.answersOk 1 →
    ∀ i ∈ [Instr.selectBank b, .writeReg s.params.bankRegister b, .writeBlock s.params.bankRegister [b]],
      s.admits i →
      microRun i 2 s = .next { s with
        ctrl := { s.ctrl with cmd := some i, seqPc := none }
        dev := { s.dev with banksel := some b }
        env := s.env.commanded [sent [s.params.bankRegister, b]] }

/-- `WRITE_REG a, v` and `WRITE_BLOCK a, n, d`, from acceptance to `IDLE`, where R66 accepts a bank-relative transfer:
one transfer, whose byte k lands in the register that `a + k` names in the bank selected; every other register of the
device keeps its value (R66, R67, R124, R125, R245). That `CMD` keeps the command after its end is log 11, the
recorded answer log 1. -/
def Obligations.RegisterWritesComplete : Prop :=
  ∀ (s : State) (i : Instr) (a b : Byte) (d : List Byte), wellFormedParams s.params = true → s.answersOk 1 →
    i = .writeBlock a d ∨ (∃ v, i = .writeReg a v ∧ d = [v]) → s.admits i →
    a ≠ s.params.bankRegister → s.dev.banksel = some b →
    (∀ k < d.length, (target s.params b (a.toNat + k)).isSome = true) →
    ∃ w, microRun i 2 s = .next w ∧
      (∀ k v, d[k]? = some v → ∃ t, target s.params b (a.toNat + k) = some t ∧ w.dev.readTarget t = some v) ∧
      (∀ t, t.exists s.params = true → (∀ k < d.length, target s.params b (a.toNat + k) ≠ some t) →
        w.dev.readTarget t = s.dev.readTarget t) ∧
      (w.settlePending = true ↔ s.settlePending = true ∨
        ∃ k, d[k]? = some 0x00 ∧ target s.params b (a.toNat + k) = some .shutdown) ∧
      w.dev.banksel = some b ∧ w.params = s.params ∧
      w.ctrl = { s.ctrl with cmd := some i, seqPc := none } ∧ w.env = s.env.commanded [sent (a :: d)]

/-- `WRITE_CONFIG a, v`, from acceptance: the config bank is selected, then the byte lands in the register `a` names;
an address that names no register is a model fault at C2; the bank register selects bank `v` (R127, R128, R245; the
last clause is log 25). That `CMD` keeps the command after its end is log 11, the recorded answer log 1. -/
def Obligations.WriteConfigCompletes : Prop :=
  ∀ (s : State) (a v : Byte), wellFormedParams s.params = true → s.answersOk 2 → s.admits (.writeConfig a v) →
    (∀ t, a ≠ s.params.bankRegister → target s.params s.params.configBank a.toNat = some t →
      ∃ w, microRun (.writeConfig a v) 3 s = .next w ∧ w.dev.readTarget t = some v ∧
        (∀ u, u.exists s.params = true → u ≠ t → w.dev.readTarget u = s.dev.readTarget u) ∧
        w.settlePending = (s.settlePending || (t == .shutdown && v == 0x00)) ∧
        w.dev.banksel = some s.params.configBank ∧ w.params = s.params ∧
        w.ctrl = { s.ctrl with cmd := some (.writeConfig a v), seqPc := none } ∧
        w.env = s.env.commanded [sent [s.params.bankRegister, s.params.configBank], sent [a, v]]) ∧
    (a ≠ s.params.bankRegister → target s.params s.params.configBank a.toNat = none →
      microRun (.writeConfig a v) 3 s = .fault .undefinedRegister) ∧
    (a = s.params.bankRegister →
      microRun (.writeConfig a v) 3 s = .next { s with
        ctrl := { s.ctrl with cmd := some (.writeConfig a v), seqPc := none }
        dev := { s.dev with banksel := some v }
        env := s.env.commanded [sent [a, s.params.configBank], sent [a, v]] })

/-- `RESET_SEQ`, from acceptance to `IDLE`: S1 to S5 in R140's order, ending with the shutdown register 0x01, the
config bank selected, `READY` 0 and `SETTLE_PENDING` 0; nothing else changes (R128, R140, R141, R245). That `CMD`
keeps the command after its end is log 11, the recorded answer log 1. -/
def Obligations.ResetSeqCompletes : Prop :=
  ∀ s : State, wellFormedParams s.params = true → s.answersOk 4 → s.admits .resetSeq →
    microRun .resetSeq 6 s = .next { s with
      ctrl := { s.ctrl with cmd := some .resetSeq, seqPc := none, ready := 0 }
      dev := { s.dev with banksel := some s.params.configBank, shutdown := some 0x01 }
      settlePending := false
      env := s.env.commanded (resetEvents s.params) }

/-- `CONFIGURE_SEQ`, from acceptance to `IDLE`: S6 to S11 in R140's order; `READY` is unchanged (R128, R140, R142).
That `CMD` keeps the command after its end is log 11, the recorded answer log 1. -/
def Obligations.ConfigureSeqCompletes : Prop :=
  ∀ s : State, wellFormedParams s.params = true → s.answersOk 6 → s.admits .configureSeq →
    microRun .configureSeq 7 s = .next { s with
      ctrl := { s.ctrl with cmd := some .configureSeq, seqPc := none }
      dev := { s.dev with
        banksel := some s.params.configBank
        frame := some 0x00
        mode := some s.params.pictureMode
        audioSync := some 0x00 }
      env := s.env.commanded (configureEvents s.params) }

/-- `ENABLE_SEQ`, from acceptance to `IDLE`: exactly seventeen enable bytes of each frame bank become 0xFF, bank 1
stays selected, and nothing else changes (R128, R140, R143). That `CMD` keeps the command after its end is log 11, the
recorded answer log 1. -/
def Obligations.EnableSeqCompletes : Prop :=
  ∀ s : State, wellFormedParams s.params = true → s.answersOk 4 → s.admits .enableSeq →
    ∃ en, microRun .enableSeq 5 s = .next { s with
        ctrl := { s.ctrl with cmd := some .enableSeq, seqPc := none }
        dev := { s.dev with banksel := some 0x01, en := en }
        env := s.env.commanded (enableEvents s.params) } ∧
      ∀ b < 2, ∀ j < s.params.enableRegCount,
        ({ s.dev with en := en } : Dev).enableByte b j = if j < 17 then some 0xFF else s.dev.enableByte b j

/-- `SETUP`, from acceptance to `IDLE`, whatever the device held: the fourteen transfers and the wait of R140 in their
order, the registers of R148, `READY` 1, and every other enable byte, every colour byte and every other register of
CTRL unchanged (R128, R140, R144, R148). That S16 is a micro-step of its own is log 12. That `CMD` keeps the command
after its end is log 11, the recorded answer log 1. -/
def Obligations.SetupConfiguresDevice : Prop :=
  ∀ s : State, wellFormedParams s.params = true → s.answersOk 14 → s.admits .setup →
    ∃ en, microRun .setup 17 s = .next { s with
        ctrl := { s.ctrl with cmd := some .setup, seqPc := none, ready := 1 }
        dev := { s.dev with
          banksel := some 0x01
          shutdown := some 0x01
          frame := some 0x00
          mode := some s.params.pictureMode
          audioSync := some 0x00
          en := en }
        settlePending := false
        env := s.env.commanded (resetEvents s.params ++ configureEvents s.params ++ enableEvents s.params) } ∧
      ∀ b < 2, ∀ j < s.params.enableRegCount,
        ({ s.dev with en := en } : Dev).enableByte b j = if j < 17 then some 0xFF else s.dev.enableByte b j

/-- SETUP twice in succession makes the same outputs twice and leaves in every register of the device what it left the
first time (R147). That S16 is a micro-step of its own is log 12. -/
def Obligations.SetupIsIdempotent : Prop :=
  ∀ s : State, wellFormedParams s.params = true → s.answersOk 28 → s.admits .setup →
    ∃ w w', microRun .setup 17 s = .next w ∧ microRun .setup 17 w = .next w' ∧
      (∀ t, t.exists s.params = true → w'.dev.readTarget t = w.dev.readTarget t) ∧
      w'.dev.banksel = w.dev.banksel ∧ w'.ctrl = w.ctrl ∧
      ∃ evs, w.env.trace = evs ++ s.env.trace ∧ w'.env.trace = evs ++ w.env.trace

/-! ### The pixel mapper (42_pixel_mapper.md) -/

/-- `MAP`, from acceptance to `IDLE`: byte `idx(x, y)` of `PBUF` is cell (x, y), every byte that no cell maps to is
0x00 whatever it held, and nothing else changes (R161, R169, R171). That `CMD` keeps the command after its end is log
11, the recorded answer log 1. -/
def Obligations.MapFillsBuffer : Prop :=
  ∀ s : State, s.admits .map →
    ∃ pb, microRun .map 2 s = .next { s with
        ctrl := { s.ctrl with cmd := some .map, seqPc := none, pbuf := pb }
        env := s.env.commanded [] } ∧
      (∀ x < 17, ∀ y < 7, bufferByte pb (idx x y) = frameCell s.ctrl.lframe x y) ∧
      ∀ k < 144, (∀ x < 17, ∀ y < 7, idx x y ≠ k) → bufferByte pb k = 0x00

/-- `idx` is the forward table that the spec prints (R166); the indices lie in [0, 134], in the block and at the offsets
R163 gives each branch, and distinct cells have distinct indices (R162, R163). -/
def Obligations.IndexTableRangeAndInjectivity : Prop :=
  (List.range 17).map (fun x => (List.range 7).map (idx x)) =
    [ [134, 133, 132, 131, 130, 129, 128], [118, 117, 116, 115, 114, 113, 112], [102, 101, 100, 99, 98, 97, 96],
      [86, 85, 84, 83, 82, 81, 80], [70, 69, 68, 67, 66, 65, 64], [54, 53, 52, 51, 50, 49, 48],
      [38, 37, 36, 35, 34, 33, 32], [22, 21, 20, 19, 18, 17, 16], [6, 5, 4, 3, 2, 1, 0],
      [8, 9, 10, 11, 12, 13, 14], [24, 25, 26, 27, 28, 29, 30], [40, 41, 42, 43, 44, 45, 46],
      [56, 57, 58, 59, 60, 61, 62], [72, 73, 74, 75, 76, 77, 78], [88, 89, 90, 91, 92, 93, 94],
      [104, 105, 106, 107, 108, 109, 110], [120, 121, 122, 123, 124, 125, 126] ] ∧
  ∀ x < 17, ∀ y < 7,
    (x ≤ 8 → 16 * (8 - x) ≤ idx x y ∧ idx x y ≤ 16 * (8 - x) + 6) ∧
    (9 ≤ x → 16 * (x - 9) + 8 ≤ idx x y ∧ idx x y ≤ 16 * (x - 9) + 14) ∧
    idx x y ≤ 134 ∧ ∀ x' < 17, ∀ y' < 7, idx x y = idx x' y' → x = x' ∧ y = y'

/-- A frame with one nonzero cell maps to a buffer with one nonzero byte, at the cell's index (R165, R170). -/
def Obligations.SinglePixelMapsToOneByte : Prop :=
  ∀ (f : ByteMemory) (x y : Nat) (v : Byte), x < 17 → y < 7 → v ≠ 0x00 →
    (∀ x' < 17, ∀ y' < 7, frameCell f x' y' = if x' = x ∧ y' = y then v else 0x00) →
    ∀ k < 144, bufferByte (mapFrame f) k = if k = idx x y then v else 0x00

/-! ### The frame update and the scroll (43_scroll_sequencer.md) -/

/-- `PRESENT`, from acceptance to `IDLE`: the mapped frame is written to bank `ACTIVE`, that bank becomes the
displayed one, `ACTIVE` toggles; the other bank's colour bytes, every enable byte and the other registers keep their
values (R128, R187, R188). That `CMD` keeps the command after its end is log 11, the recorded answer log 1. -/
def Obligations.PresentCompletes : Prop :=
  ∀ s : State, wellFormedParams s.params = true → s.answersOk 4 → s.admits .present →
    ∃ col, microRun .present 7 s = .next { s with
        ctrl := { s.ctrl with
          cmd := some .present
          seqPc := none
          pbuf := mapFrame s.ctrl.lframe
          active := s.ctrl.active ^^^ 1 }
        dev := { s.dev with
          banksel := some s.params.configBank
          frame := some (s.ctrl.active.setWidth 8)
          col := col }
        env := s.env.commanded
          (updateEvents s.params (s.ctrl.active.setWidth 8) (bufferBytes (mapFrame s.ctrl.lframe))) } ∧
      ∀ b < 2, ∀ k < 144,
        ({ s.dev with col := col } : Dev).colorByte b k =
          if b = s.ctrl.active.toNat then some (bufferByte (mapFrame s.ctrl.lframe) k) else s.dev.colorByte b k

/-- From any bound, idle block and whatever the device holds: SETUP, LOAD_FRAME f and PRESENT, with every transfer
answered `ok`, show at every logical pixel (x, y) the operand's byte `17*y + x` (R40, R148, R165, R168, R187). That
S16 is a micro-step of SETUP is log 12. -/
def Obligations.LoadedFrameIsDisplayed : Prop :=
  ∀ (s : State) (f : List Byte), wellFormedParams s.params = true → s.answersOk 18 → s.admits .setup →
    f.length = 119 →
    ∃ w1 w2 w3, microRun .setup 17 s = .next w1 ∧ exec (.loadFrame f) w1 = .next w2 ∧
      microRun .present 7 w2 = .next w3 ∧ w3.ctrl.phase = .idle ∧
      ∀ x < 17, ∀ y < 7, displayedPixel w3 x y = f[17 * y + x]?

/-- A frame bank whose enable bytes are all 0x00, as after power-on, shows dark at every LED whatever its colour bytes hold
(R38, R40, R146). -/
def Obligations.UnenabledBankIsDark : Prop :=
  ∀ (s : State) (b : Nat), displayedBank s = some b →
    (∀ j < s.params.enableRegCount, s.dev.enableByte b j = some 0x00) → ∀ i < 144, disp s i = some 0x00

/-- `SCROLL_INIT`, from acceptance to `IDLE`: `OFFSET`, `ACTIVE` and `TEXTW` become 0, whether `READY` is 0 or 1, and
DEV is untouched (R181). That I1 writes `TEXTW`, on which the spec's rules disagree, is log 28's choice. That `CMD` keeps
the command after its end is log 11, the recorded answer log 1. -/
def Obligations.ScrollInitCompletes : Prop :=
  ∀ s : State, s.admits .scrollInit →
    microRun .scrollInit 2 s = .next { s with
      ctrl := { s.ctrl with cmd := some .scrollInit, seqPc := none, offset := 0, active := 0, textw := 0 }
      env := s.env.commanded [] }

/-- K1 to K3, in TICK, SCROLL and RUN: `OFFSET` drops by 1, the text is rendered at the new `OFFSET + 17`, and the
command ends in `DONE` with exit code 0 exactly when `OFFSET + 17 + W < 0`, without a transfer or a wait (R189, R190,
R219). That `CMD` keeps the command after its end is log 11. -/
def Obligations.TickRendersAndTests : Prop :=
  ∀ (s : State) (i : Instr), ScrollInRange s →
    i = .tick ∨ i = .scroll ∨ i = .run → s.runsAt i .K1 →
    ∃ w, microRun i 3 s = .next w ∧ w.dev = s.dev ∧ w.settlePending = s.settlePending ∧ w.env = s.env ∧
      w.params = s.params ∧ w.ctrl.offset.toInt = s.ctrl.offset.toInt - 1 ∧
      w.ctrl = { s.ctrl with
        offset := w.ctrl.offset
        lframe := (render s.params (s.ctrl.offset.toInt - 1 + 17)).1
        textw := BitVec.ofNat 32 (textWidth s.params)
        phase := if s.ctrl.offset.toInt - 1 + 17 + textWidth s.params < 0 then .done else .busy
        exit := if s.ctrl.offset.toInt - 1 + 17 + textWidth s.params < 0 then some 0 else s.ctrl.exit
        seqPc := if s.ctrl.offset.toInt - 1 + 17 + textWidth s.params < 0 then none else some .U1 }

/-- `TICK`, from acceptance to `IDLE`, when it does not terminate: the rendered frame is written to bank `ACTIVE`,
that bank becomes the displayed one, `ACTIVE` toggles, and the interval's wait follows (R128, R187, R189). That `CMD`
keeps the command after its end is log 11, the recorded answer log 1. -/
def Obligations.TickWritesFrame : Prop :=
  ∀ s : State, wellFormedParams s.params = true → ScrollInRange s → s.answersOk 4 → s.admits .tick →
    0 ≤ s.ctrl.offset.toInt - 1 + 17 + textWidth s.params →
    ∃ w, microRun .tick 11 s = .next w ∧ w.ctrl.offset.toInt = s.ctrl.offset.toInt - 1 ∧
      w.ctrl = { s.ctrl with
        cmd := some .tick
        seqPc := none
        offset := w.ctrl.offset
        textw := BitVec.ofNat 32 (textWidth s.params)
        lframe := (render s.params (s.ctrl.offset.toInt - 1 + 17)).1
        pbuf := mapFrame w.ctrl.lframe
        active := s.ctrl.active ^^^ 1 } ∧
      w.dev = { s.dev with
        banksel := some s.params.configBank
        frame := some (s.ctrl.active.setWidth 8)
        col := w.dev.col } ∧
      (∀ b < 2, ∀ k < 144, w.dev.colorByte b k =
        if b = s.ctrl.active.toNat then some (bufferByte w.ctrl.pbuf k) else s.dev.colorByte b k) ∧
      w.env = s.env.commanded
        (updateEvents s.params (s.ctrl.active.setWidth 8) (bufferBytes w.ctrl.pbuf) ++ [.wait 100]) ∧
      w.settlePending = s.settlePending ∧ w.params = s.params

/-- Bank alternation: k ticks after I1, in SCROLL and RUN, with `k` at most `17 + W`, `OFFSET` is `-k`, `ACTIVE` is
`k mod 2` and the command is at K1 again. The outputs are those of the k ticks in order: tick m writes the text at cursor
`17 - m` to bank `(m - 1) mod 2` and displays that bank. After tick k the displayed bank is the one it wrote, each frame
bank holds the frame of the last tick that wrote it, and no other register of the device is written but the selected bank
(R180, R181, R187, R189, R191, R193). -/
def Obligations.ScrollAlternatesBanks : Prop :=
  ∀ (s : State) (i : Instr) (k : Nat), wellFormedParams s.params = true → i = .scroll ∨ i = .run →
    s.runsAt i .I1 → k ≤ 17 + textWidth s.params → s.answersOk (4 * k) →
    ∃ w, microRun i (1 + 10 * k) s = .next w ∧ w.runsAt i .K1 ∧ w.ctrl.offset.toInt = -k ∧
      w.ctrl.active.toNat = k % 2 ∧
      w.env = s.env.emitted ((List.range k).flatMap fun m => tickEvents s.params (m + 1)) ∧
      (1 ≤ k → w.dev = { s.dev with
          banksel := some s.params.configBank
          frame := some (BitVec.ofNat 8 ((k - 1) % 2))
          col := w.dev.col } ∧
        w.ctrl.textw.toInt = textWidth s.params) ∧
      ∀ m, 1 ≤ m → m ≤ k → k ≤ m + 1 → ∀ j < 144,
        w.dev.colorByte ((m - 1) % 2) j = some (bufferByte (mapFrame (render s.params (17 - m)).1) j)

/-- Tick count: from I1, in SCROLL and RUN, tick `18 + W` terminates: the command is `BUSY` before it and `DONE` after it,
with exit code 0, `OFFSET` `-(18 + W)`, bank `(16 + W) mod 2` displayed, a blank logical frame, and no output in that tick
(R190, R191, R193, R194, R219). -/
def Obligations.ScrollEndsAtTick18PlusW : Prop :=
  ∀ (s : State) (i : Instr), wellFormedParams s.params = true → i = .scroll ∨ i = .run → s.runsAt i .I1 →
    s.answersOk (4 * (17 + textWidth s.params)) →
    ∃ w u, microRun i (1 + 10 * (17 + textWidth s.params)) s = .next w ∧ w.ctrl.phase = .busy ∧
      microRun i 3 w = .next u ∧ u.ctrl.phase = .done ∧ u.ctrl.seqPc = none ∧ u.ctrl.exit = some 0 ∧
      u.ctrl.offset.toInt = -(18 + textWidth s.params : Int) ∧
      u.ctrl.active.toNat = (17 + textWidth s.params) % 2 ∧
      u.dev.frame = some (BitVec.ofNat 8 ((16 + textWidth s.params) % 2)) ∧
      (∀ x < 17, ∀ y < 7, frameCell u.ctrl.lframe x y = 0x00) ∧ u.env.trace = w.env.trace

/-- `RUN` from acceptance, over a transport that answers `ok` to all its `16 + 4 * (17 + W)` calls: it ends in `DONE`
with exit code 0, `OPENED`, `BOUND` and `READY` 1, `OFFSET` `-(18 + W)`, the device configured and bank `(16 + W) mod
2` displayed (R183, R192, R194, R219). That S16 is a micro-step of its own is log 12. -/
def Obligations.RunScrollsWholeText : Prop :=
  ∀ s : State, wellFormedParams s.params = true → s.admits .run →
    s.answersOk (16 + 4 * (17 + textWidth s.params)) →
    ∃ w, microRun .run (23 + 10 * (17 + textWidth s.params)) s = .next w ∧
      w.ctrl.phase = .done ∧ w.ctrl.exit = some 0 ∧ w.ctrl.opened = 1 ∧ w.ctrl.bound = 1 ∧ w.ctrl.ready = 1 ∧
      w.ctrl.cause = s.ctrl.cause ∧ w.ctrl.offset.toInt = -(18 + textWidth s.params : Int) ∧
      w.ctrl.textw.toInt = textWidth s.params ∧ Configured w ∧
      w.dev.frame = some (BitVec.ofNat 8 ((16 + textWidth s.params) % 2)) ∧
      w.env.draws = s.env.draws + 16 + 4 * (17 + textWidth s.params)

/-- `render` returns the widths of the glyphs and one spacing column between adjacent ones, wherever it starts, and
paints no cell outside the text's columns (R182, R183, R184, R185, R186). -/
def Obligations.RenderWidthAndColumns : Prop :=
  ∀ (c : Params) (o : Int), (render c o).2 = textWidth c ∧
    ∀ x y : Nat, x < 17 → y < 7 → (x : Int) < o ∨ o + textWidth c ≤ x → frameCell (render c o).1 x y = 0x00

/-- Drawing a glyph changes no cell outside its columns, for a prescribed glyph and for any other (R184, R185). -/
def Obligations.GlyphStaysInItsColumns : Prop :=
  ∀ (c : Params) (f : ByteMemory) (o : Int) (ch : Char) (x y : Nat), x < 17 → y < 7 →
    (x : Int) < o ∨ o + (drawGlyph c f o ch).2 ≤ x → frameCell (drawGlyph c f o ch).1 x y = frameCell f x y

/-! ### One step of the machine -/

/-- While a command executes a step is its next micro-step; otherwise a step takes the host's next command from the front
of the byte stream and runs it, and with no byte to take nothing happens, whether ENV's schedule is empty or lets the block
move (R93, R94, R231, R242; the schedule is log 4). -/
def Obligations.StepRunsDecodedCommand : Prop :=
  ∀ s u : State, wellFormedParams s.params = true →
    (s.env.sched = [] ∧ u = s) ∨
      (∃ evs, s.env.sched = .proceed :: evs ∧ u = { s with env := { s.env with sched := evs } }) →
    (∀ i, s.ctrl.phase = .busy → s.ctrl.cmd = some i → step s = exec i u) ∧
    (∀ i rest, s.ctrl.phase ≠ .busy → decode s.env.stream = .ok (i, rest) →
      step s = exec i { u with env := { u.env with stream := rest } }) ∧
    (s.ctrl.phase ≠ .busy → s.env.stream = [] → step s = .next u)

/-- A command the host issues on its own time: while another executes it is taken from the stream and refused with
`Busy`, otherwise it runs; a stream that ends inside a command is refused with `BadOperand` in `IDLE` and is used up (R97,
R222, R231; the schedule is log 4, the used-up stream log 16). -/
def Obligations.AttemptedCommand : Prop :=
  ∀ (s : State) (evs : List EnvEvent), wellFormedParams s.params = true → s.env.sched = .attempt :: evs →
    (∀ i rest, decode s.env.stream = .ok (i, rest) →
      step s =
        if s.ctrl.phase = .busy then
          .next { s with env := { s.env with sched := evs, stream := rest, reply := some (.refused .busy) } }
        else exec i { s with env := { s.env with sched := evs, stream := rest } }) ∧
    (decode s.env.stream = .error .truncated → s.ctrl.phase = .idle →
      step s = .next { s with env := { s.env with
        sched := evs, stream := [], reply := some (.refused .badOperand) } })

/-- The model refuses every parameter set that breaks one of R9's clauses, whatever the rest of the state is (R9). -/
def Obligations.IllFormedParametersAreRefused : Prop :=
  ∀ (s : State) (c : Params), s.params = c →
    (0xFF < c.colorBase.toNat + 144 - 1 ∨ 0xFF < c.enableBase.toNat + c.enableRegCount - 1 ∨
      (∃ n, c.enableBase.toNat ≤ n ∧ n < c.enableBase.toNat + c.enableRegCount ∧
        c.colorBase.toNat ≤ n ∧ n < c.colorBase.toNat + 144) ∨
      (c.enableBase.toNat ≤ c.bankRegister.toNat ∧ c.bankRegister.toNat < c.enableBase.toNat + c.enableRegCount) ∨
      (c.colorBase.toNat ≤ c.bankRegister.toNat ∧ c.bankRegister.toNat < c.colorBase.toNat + 144) ∨
      c.bankRegister ∈ [c.modeRegister, c.frameRegister, c.audioSyncRegister, c.shutdownRegister] ∨
      ¬[c.modeRegister, c.frameRegister, c.audioSyncRegister, c.shutdownRegister].Nodup ∨
      c.configBank = 0 ∨ c.configBank = 1 ∨ c.enableRegCount < 17) →
    step s = .refused .illFormedParameters

/-- Block reset puts every register of CTRL at R22's reset column, keeps DEV and the parameters, and gives up an
outstanding call (R22, R240). Three clauses are the model's choice: that `SETTLE_PENDING` is cleared (log 14), that the
outstanding call is given up (log 6), and that ENV's stream, answers, reply and trace stay as they are (log 21). -/
def Obligations.BlockResetRestoresControl : Prop :=
  ∀ (s : State) (evs : List EnvEvent), wellFormedParams s.params = true → s.env.sched = .blockReset :: evs →
    step s = .next { s with
      ctrl := {
        phase := .idle, cmd := none, seqPc := none, cause := 0x00, causeInner := 0x00, causeStep := none
        opened := 0, bound := 0, ready := 0, active := 0, offset := 0, textw := 0
        lframe := [], pbuf := [], exit := none }
      settlePending := false
      env := { s.env with sched := evs, hung := false } }

/-- An external device reset outside a transfer puts DEV at its power-on state and does not inform CTRL (R42, R70, R76,
R241). Two clauses are the model's choice: that `SETTLE_PENDING` is cleared (log 14), and that the reset lands while `open`
or `bindAddress` hangs, which is no transfer (log 6). -/
def Obligations.DeviceResetPowersOn : Prop :=
  ∀ (s : State) (evs : List EnvEvent), wellFormedParams s.params = true → s.env.sched = .deviceReset :: evs →
    s.env.hung = false ∨ s.ctrl.seqPc = some .O1 ∨ s.ctrl.seqPc = some .O2 →
    ∃ w, step s = .next w ∧ w.ctrl = s.ctrl ∧ w.params = s.params ∧ w.env = { s.env with sched := evs } ∧
      w.settlePending = false ∧ w.dev.banksel = none ∧ w.dev.mode = none ∧ w.dev.frame = none ∧
      w.dev.audioSync = none ∧ w.dev.shutdown = none ∧ (∀ b j, w.dev.enableByte b j = some 0x00) ∧
      ∀ b k, w.dev.colorByte b k = none

/-! ### Invariants and whole-machine rules -/

/-- The reset state meets every invariant below (R22, R42, R240, R241). -/
def Obligations.ResetMeetsInvariants : Prop :=
  CanonicalMemories State.reset ∧ ControlConsistent State.reset ∧ BankSelected State.reset ∧ ScrollInRange State.reset

/-- Every step keeps the buffers and the device's arrays in canonical form and inside their spaces (R60, R62). -/
def Obligations.CanonicalMemoriesKept : Prop :=
  ∀ s w : State, CanonicalMemories s → step s = .next w → CanonicalMemories w

/-- Every step keeps CTRL's status registers consistent: `SEQ_PC` names a step of `CMD` exactly while `BUSY`, `EXIT` and
the causes agree with `PHASE`, and bound implies opened, ready implies bound (R23, R24, R26, R32, R33, R211, R219). -/
def Obligations.ControlConsistentKept : Prop :=
  ∀ s w : State, ControlConsistent s → step s = .next w → ControlConsistent w

/-- Every step but an external device reset keeps the selected bank the one that the next bank-relative transfer of a
fixed sequence is meant for (R244). That such a reset can leave a sequence without its bank is log 23. -/
def Obligations.BankSelectedKept : Prop :=
  ∀ s w : State, ControlConsistent s → BankSelected s → (∀ evs, s.env.sched ≠ .deviceReset :: evs) →
    step s = .next w → BankSelected w

/-- Every step keeps `OFFSET` and `TEXTW` in the range where no arithmetic of the scroll wraps (R10, R11, R189, R190). -/
def Obligations.ScrollInRangeKept : Prop :=
  ∀ s w : State, ControlConsistent s → ScrollInRange s → step s = .next w → ScrollInRange w

/-- No micro-step of a fixed sequence faults: with the bank selected that it is meant for, every step but W1 and C2 answers
a next state, whatever the transport answers (R141, R144, R188, R221). -/
def Obligations.SequencesNeverFault : Prop :=
  ∀ (s : State) (i : Instr) (t : Table) (l : Label), wellFormedParams s.params = true → BankSelected s →
    commandTable i = some t → l ∈ t.labels → s.runsAt i l → l ≠ .W1 → l ≠ .C2 → ∃ w, exec i s = .next w

/-- R22's column "written by", with R23 and R24: but for the block reset, a step changes `CMD` only where it accepts a
command; `PHASE` and `SEQ_PC` there, where a micro-step goes to the next label of its table or ends the command, where K3
ends the scroll, or where an error is raised; the causes only where an error is raised; `EXIT` there or at K3's end;
`OPENED` and `BOUND` at O1 and O2; `OFFSET`, `ACTIVE`, `TEXTW`, `PBUF` and `LFRAME` at the labels that write them, and
`LFRAME` where a LOAD_FRAME takes effect; `READY` at S16, at the acceptance of RESET_SEQ or SETUP, and at RUN's O2 (R22,
R23, R24, R28, R43, R94, R189, R211, R215; that I1 writes `TEXTW` is log 28, that RUN clears `READY` at O2 is log 13). -/
def Obligations.ControlRegisterWriters : Prop :=
  ∀ s w : State, step s = .next w → (∀ evs, s.env.sched ≠ .blockReset :: evs) →
    (w.ctrl.cmd ≠ s.ctrl.cmd → ∃ i, Accepted s w i) ∧
    (w.ctrl.phase ≠ s.ctrl.phase ∨ w.ctrl.seqPc ≠ s.ctrl.seqPc →
      (∃ i, Accepted s w i) ∨ (∃ i l, Sequenced s w i l) ∨ Finished s w ∨ ∃ l, Raised s w l) ∧
    (w.ctrl.cause ≠ s.ctrl.cause ∨ w.ctrl.causeInner ≠ s.ctrl.causeInner ∨ w.ctrl.causeStep ≠ s.ctrl.causeStep →
      ∃ l, Raised s w l) ∧
    (w.ctrl.exit ≠ s.ctrl.exit → Finished s w ∨ ∃ l, Raised s w l) ∧
    (w.ctrl.opened ≠ s.ctrl.opened → s.standsAt .O1) ∧
    (w.ctrl.bound ≠ s.ctrl.bound → s.standsAt .O2) ∧
    (w.ctrl.ready ≠ s.ctrl.ready →
      s.standsAt .S16 ∨ (s.standsAt .O2 ∧ s.ctrl.cmd = some .run) ∨ Accepted s w .resetSeq ∨ Accepted s w .setup) ∧
    (w.ctrl.offset ≠ s.ctrl.offset → s.standsAt .I1 ∨ s.standsAt .K1) ∧
    (w.ctrl.active ≠ s.ctrl.active → s.standsAt .I1 ∨ s.standsAt .U6) ∧
    (w.ctrl.textw ≠ s.ctrl.textw → s.standsAt .I1 ∨ s.standsAt .K2) ∧
    (w.ctrl.pbuf ≠ s.ctrl.pbuf → s.standsAt .M1 ∨ s.standsAt .U1) ∧
    (w.ctrl.lframe ≠ s.ctrl.lframe →
      s.standsAt .K2 ∨ ∃ f, Admitted s w (.loadFrame f) ∧ w.ctrl = { s.ctrl with lframe := frameOfBytes f })

/-- CTRL cannot read the device: from two states that differ in the device alone, a step leaves the same CTRL and the
same ENV, whatever bank is selected in each (R34, R35, R60). Both runs draw the same answers and the same glyphs,
which is the model's choice (log 5, log 7). -/
def Obligations.ControlIgnoresDevice : Prop :=
  ∀ (s w w' : State) (d : Dev) (p : Bool), step s = .next w →
    step { s with dev := d, settlePending := p } = .next w' →
    w'.ctrl = w.ctrl ∧ w'.env = w.env ∧ w'.params = w.params

/-- A step makes at most one output of the block, the device changes only in a step with a transfer that returned or by an
external reset, and no step writes the parameters (R20, R74, R129). -/
def Obligations.OneOutputPerStep : Prop :=
  ∀ s w : State, ControlConsistent s → step s = .next w →
    w.params = s.params ∧
    ((w.env.trace = s.env.trace ∧ (w.dev = s.dev ∨ ∃ evs, s.env.sched = .deviceReset :: evs)) ∨
      ∃ ev, w.env.trace = ev :: s.env.trace ∧
        (w.dev = s.dev ∨ ∃ bytes r, ev = .transfer bytes r ∧ r ≠ .hang))

end Statements
end

