-- ==== Sys2Proof/Laws/Memory.lean ====
section
/-! SUPPORT. The laws of the canonical cell lists: reading after writing, and the canonical form kept. -/

namespace Sys2Proof.Machine

variable {α : Type} {d v w : α} {m m' : Memory α} {a b : Nat}

@[simp] theorem Memory.read_nil : Memory.read d ([] : Memory α) a = d := rfl

theorem Memory.read_cons : Memory.read d ((b, w) :: m) a = if a = b then w else Memory.read d m a := by
  unfold Memory.read
  by_cases h : a = b
  · subst h; simp
  · have h' : (a == b) = false := by simpa using h
    simp [List.lookup_cons, h', h]

@[simp] theorem Memory.read_put_same : Memory.read d (Memory.put m a v) a = v := by
  induction m with
  | nil => simp [Memory.put, Memory.read_cons]
  | cons c m ih =>
    obtain ⟨b, w⟩ := c
    unfold Memory.put
    split_ifs with h1 h2
    · simp [Memory.read_cons]
    · simp [Memory.read_cons]
    · simp [Memory.read_cons, h2, ih]

theorem Memory.read_put_other (h : b ≠ a) : Memory.read d (Memory.put m a v) b = Memory.read d m b := by
  induction m with
  | nil => simp [Memory.put, Memory.read_cons, h]
  | cons c m ih =>
    obtain ⟨k, w⟩ := c
    unfold Memory.put
    split_ifs with h1 h2
    · simp [Memory.read_cons, h]
    · subst h2; simp [Memory.read_cons, h]
    · simp [Memory.read_cons, ih]

theorem Memory.read_erase :
    Memory.read d (m.filter fun cell => cell.1 != a) b = if b = a then d else Memory.read d m b := by
  induction m with
  | nil => simp
  | cons c m ih =>
    obtain ⟨k, w⟩ := c
    by_cases hk : k = a
    · subst hk
      simp only [List.filter_cons, bne_self_eq_false, Bool.false_eq_true, if_false, ih, Memory.read_cons]
      split_ifs <;> rfl
    · have : (k != a) = true := by simpa using hk
      simp only [List.filter_cons, this, if_true, Memory.read_cons, ih]
      split_ifs with h1 h2 <;> first | rfl | (subst h1; exact absurd h2 hk)

variable [DecidableEq α]

@[simp] theorem Memory.read_write_same : Memory.read d (Memory.write d m a v) a = v := by
  unfold Memory.write
  split_ifs with h
  · simp [Memory.read_erase, h]
  · exact Memory.read_put_same

theorem Memory.read_write_other (h : b ≠ a) : Memory.read d (Memory.write d m a v) b = Memory.read d m b := by
  unfold Memory.write
  split_ifs with hv
  · simp [Memory.read_erase, h]
  · exact Memory.read_put_other h

theorem Memory.read_write : Memory.read d (Memory.write d m a v) b = if b = a then v else Memory.read d m b := by
  split_ifs with h
  · subst h; exact Memory.read_write_same
  · exact Memory.read_write_other h

omit [DecidableEq α] in
theorem Memory.mem_put {cell : Nat × α} (h : cell ∈ Memory.put m a v) : cell = (a, v) ∨ cell ∈ m := by
  induction m with
  | nil => simpa [Memory.put] using h
  | cons c m ih =>
    obtain ⟨k, w⟩ := c
    unfold Memory.put at h
    split_ifs at h with h1 h2
    · simpa using h
    · simp only [List.mem_cons] at h ⊢; tauto
    · simp only [List.mem_cons] at h ⊢
      rcases h with h | h
      · exact .inr (.inl h)
      · rcases ih h with h | h <;> tauto

theorem Memory.mem_write {cell : Nat × α} (h : cell ∈ Memory.write d m a v) : cell = (a, v) ∨ cell ∈ m := by
  unfold Memory.write at h
  split_ifs at h
  · exact .inr (List.mem_of_mem_filter h)
  · exact Memory.mem_put h

/-- The canonical form, spelled out. -/
theorem Memory.wf_iff :
    Memory.wf d m = true ↔ m.Pairwise (fun x y => x.1 < y.1) ∧ ∀ cell ∈ m, cell.2 ≠ d := by
  simp [Memory.wf, List.pairwise_map]

@[simp] theorem Memory.wf_nil : Memory.wf d ([] : Memory α) = true := by simp [Memory.wf]

omit [DecidableEq α] in
theorem Memory.pairwise_put (h : m.Pairwise (fun x y => x.1 < y.1)) :
    (Memory.put m a v).Pairwise (fun x y => x.1 < y.1) := by
  induction m with
  | nil => simp [Memory.put]
  | cons c m ih =>
    obtain ⟨k, w⟩ := c
    rw [List.pairwise_cons] at h
    unfold Memory.put
    split_ifs with h1 h2
    · refine List.pairwise_cons.2 ⟨fun y hy => ?_, List.pairwise_cons.2 h⟩
      rcases List.mem_cons.1 hy with rfl | hy
      · exact h1
      · exact lt_trans h1 (h.1 y hy)
    · subst h2; exact List.pairwise_cons.2 h
    · refine List.pairwise_cons.2 ⟨fun y hy => ?_, ih h.2⟩
      rcases Memory.mem_put hy with rfl | hy
      · show k < a; omega
      · exact h.1 y hy

theorem Memory.wf_write (h : Memory.wf d m = true) : Memory.wf d (Memory.write d m a v) = true := by
  rw [Memory.wf_iff] at h ⊢
  refine ⟨?_, fun cell hc => ?_⟩
  · unfold Memory.write
    split_ifs
    · exact h.1.filter _
    · exact Memory.pairwise_put h.1
  · unfold Memory.write at hc
    split_ifs at hc with hv
    · exact h.2 cell (List.mem_of_mem_filter hc)
    · rcases Memory.mem_put hc with rfl | hc
      · exact hv
      · exact h.2 cell hc

omit [DecidableEq α] in
theorem Memory.read_of_forall_ne (h : ∀ cell ∈ m, cell.1 ≠ a) : Memory.read d m a = d := by
  induction m with
  | nil => rfl
  | cons c m ih =>
    obtain ⟨k, w⟩ := c
    have hk : a ≠ k := fun e => h (k, w) (by simp) e.symm
    rw [Memory.read_cons, if_neg hk]
    exact ih fun cell hc => h cell (by simp [hc])

/-- Two lists in canonical form that read alike are equal. -/
theorem Memory.ext_of_read (h : Memory.wf d m = true) (h' : Memory.wf d m' = true)
    (hr : ∀ a, Memory.read d m a = Memory.read d m' a) : m = m' := by
  rw [Memory.wf_iff] at h h'
  induction m generalizing m' with
  | nil =>
    cases m' with
    | nil => rfl
    | cons c m' =>
      have := hr c.1
      rw [Memory.read_nil, Memory.read_cons, if_pos rfl] at this
      exact absurd this.symm (h'.2 c (by simp))
  | cons c m ih =>
    cases m' with
    | nil =>
      have := hr c.1
      rw [Memory.read_nil, Memory.read_cons, if_pos rfl] at this
      exact absurd this (h.2 c (by simp))
    | cons c' m' =>
      have hp := List.pairwise_cons.1 h.1
      have hp' := List.pairwise_cons.1 h'.1
      have hkey : c.1 = c'.1 := by
        by_contra hne
        rcases lt_or_gt_of_ne hne with hlt | hlt
        · have := hr c.1
          rw [Memory.read_cons, if_pos rfl, Memory.read_of_forall_ne] at this
          · exact h.2 c (by simp) this
          · intro cell hc
            rcases List.mem_cons.1 hc with rfl | hc
            · exact fun e => hne e.symm
            · have := hp'.1 cell hc; omega
        · have := hr c'.1
          rw [Memory.read_cons (b := c'.1), if_pos rfl, Memory.read_of_forall_ne] at this
          · exact h'.2 c' (by simp) this.symm
          · intro cell hc
            rcases List.mem_cons.1 hc with rfl | hc
            · exact hne
            · have := hp.1 cell hc; omega
      have hval : c.2 = c'.2 := by
        have := hr c.1
        rwa [Memory.read_cons, if_pos rfl, Memory.read_cons, if_pos hkey] at this
      have htail : m = m' := by
        refine ih ⟨hp.2, fun x hx => h.2 x (by simp [hx])⟩
          ⟨hp'.2, fun x hx => h'.2 x (by simp [hx])⟩ (fun a => ?_)
        by_cases ha : a = c.1
        · subst ha
          rw [Memory.read_of_forall_ne, Memory.read_of_forall_ne]
          · intro cell hc; have := hp'.1 cell hc; omega
          · intro cell hc; have := hp.1 cell hc; omega
        · have := hr a
          rwa [Memory.read_cons, if_neg ha, Memory.read_cons, if_neg (hkey ▸ ha)] at this
      rw [htail, Prod.ext hkey hval]

/-- A loop of writes, one per item of a list, at the keys that `key` gives. -/
theorem Memory.wf_foldl_write {β : Type} (key : β → Nat) (val : β → α) (l : List β) (h : Memory.wf d m = true) :
    Memory.wf d (l.foldl (fun b x => Memory.write d b (key x) (val x)) m) = true := by
  induction l generalizing m with
  | nil => exact h
  | cons x l ih => exact ih (Memory.wf_write h)

/-- A key that no item of the loop writes keeps its value. -/
theorem Memory.read_foldl_write_other {β : Type} (key : β → Nat) (val : β → α) (l : List β)
    (h : ∀ x ∈ l, key x ≠ a) :
    Memory.read d (l.foldl (fun b x => Memory.write d b (key x) (val x)) m) a = Memory.read d m a := by
  induction l generalizing m with
  | nil => rfl
  | cons x l ih =>
    rw [List.foldl_cons, ih fun y hy => h y (by simp [hy])]
    exact Memory.read_write_other fun e => h x (by simp) e.symm

/-- Where no two items write the same key, the loop leaves every item's value at its key. -/
theorem Memory.read_foldl_write_same {β : Type} (key : β → Nat) (val : β → α) (l : List β)
    (hinj : ∀ x ∈ l, ∀ y ∈ l, key x = key y → x = y) {x : β} (hx : x ∈ l) :
    Memory.read d (l.foldl (fun b x => Memory.write d b (key x) (val x)) m) (key x) = val x := by
  induction l generalizing m with
  | nil => simp at hx
  | cons y l ih =>
    by_cases hxl : x ∈ l
    · exact ih (fun u hu w hw => hinj u (by simp [hu]) w (by simp [hw])) hxl
    · rcases List.mem_cons.1 hx with rfl | hx'
      · rw [List.foldl_cons, Memory.read_foldl_write_other]
        · exact Memory.read_write_same
        · intro z hz e
          exact hxl (hinj z (by simp [hz]) x (by simp) e ▸ hz)
      · exact absurd hx' hxl

end Sys2Proof.Machine
end

