-- ==== Sys2Proof/Laws/State.lean ====
section
/-! SUPPORT. One lemma per field and update of the state, so that no later proof unfolds a record update. -/

namespace Sys2Proof.Machine

open Sys2Proof.Config

variable {s : State}

@[simp] theorem State.refuse_ctrl (r : Reason) : (s.refuse r).ctrl = s.ctrl := rfl
@[simp] theorem State.refuse_stream (r : Reason) : (s.refuse r).env.stream = s.env.stream := rfl
@[simp] theorem State.refuse_sched (r : Reason) : (s.refuse r).env.sched = s.env.sched := rfl
@[simp] theorem State.refuse_answers (r : Reason) : (s.refuse r).env.answers = s.env.answers := rfl
@[simp] theorem State.refuse_draws (r : Reason) : (s.refuse r).env.draws = s.env.draws := rfl
@[simp] theorem State.refuse_hung (r : Reason) : (s.refuse r).env.hung = s.env.hung := rfl
@[simp] theorem State.refuse_reply (r : Reason) : (s.refuse r).env.reply = some (.refused r) := rfl
@[simp] theorem State.refuse_trace (r : Reason) : (s.refuse r).env.trace = s.env.trace := rfl
@[simp] theorem State.refuse_dev (r : Reason) : (s.refuse r).dev = s.dev := rfl
@[simp] theorem State.refuse_settlePending (r : Reason) : (s.refuse r).settlePending = s.settlePending := rfl
@[simp] theorem State.refuse_params (r : Reason) : (s.refuse r).params = s.params := rfl

@[simp] theorem State.admitted_ctrl : (s.admitted).ctrl = s.ctrl := rfl
@[simp] theorem State.admitted_stream : (s.admitted).env.stream = s.env.stream := rfl
@[simp] theorem State.admitted_sched : (s.admitted).env.sched = s.env.sched := rfl
@[simp] theorem State.admitted_answers : (s.admitted).env.answers = s.env.answers := rfl
@[simp] theorem State.admitted_draws : (s.admitted).env.draws = s.env.draws := rfl
@[simp] theorem State.admitted_hung : (s.admitted).env.hung = s.env.hung := rfl
@[simp] theorem State.admitted_reply : (s.admitted).env.reply = some .accepted := rfl
@[simp] theorem State.admitted_trace : (s.admitted).env.trace = s.env.trace := rfl
@[simp] theorem State.admitted_dev : (s.admitted).dev = s.dev := rfl
@[simp] theorem State.admitted_settlePending : (s.admitted).settlePending = s.settlePending := rfl
@[simp] theorem State.admitted_params : (s.admitted).params = s.params := rfl

@[simp] theorem State.accept_phase (i : Instr) (l : Option Label) : (s.accept i l).ctrl.phase = .busy := rfl
@[simp] theorem State.accept_cmd (i : Instr) (l : Option Label) : (s.accept i l).ctrl.cmd = some i := rfl
@[simp] theorem State.accept_seqPc (i : Instr) (l : Option Label) : (s.accept i l).ctrl.seqPc = l := rfl
@[simp] theorem State.accept_cause (i : Instr) (l : Option Label) : (s.accept i l).ctrl.cause = s.ctrl.cause := rfl
@[simp] theorem State.accept_causeInner (i : Instr) (l : Option Label) : (s.accept i l).ctrl.causeInner = s.ctrl.causeInner := rfl
@[simp] theorem State.accept_causeStep (i : Instr) (l : Option Label) : (s.accept i l).ctrl.causeStep = s.ctrl.causeStep := rfl
@[simp] theorem State.accept_opened (i : Instr) (l : Option Label) : (s.accept i l).ctrl.opened = s.ctrl.opened := rfl
@[simp] theorem State.accept_bound (i : Instr) (l : Option Label) : (s.accept i l).ctrl.bound = s.ctrl.bound := rfl
@[simp] theorem State.accept_ready (i : Instr) (l : Option Label) : (s.accept i l).ctrl.ready = s.ctrl.ready := rfl
@[simp] theorem State.accept_active (i : Instr) (l : Option Label) : (s.accept i l).ctrl.active = s.ctrl.active := rfl
@[simp] theorem State.accept_offset (i : Instr) (l : Option Label) : (s.accept i l).ctrl.offset = s.ctrl.offset := rfl
@[simp] theorem State.accept_textw (i : Instr) (l : Option Label) : (s.accept i l).ctrl.textw = s.ctrl.textw := rfl
@[simp] theorem State.accept_lframe (i : Instr) (l : Option Label) : (s.accept i l).ctrl.lframe = s.ctrl.lframe := rfl
@[simp] theorem State.accept_pbuf (i : Instr) (l : Option Label) : (s.accept i l).ctrl.pbuf = s.ctrl.pbuf := rfl
@[simp] theorem State.accept_exit (i : Instr) (l : Option Label) : (s.accept i l).ctrl.exit = s.ctrl.exit := rfl
@[simp] theorem State.accept_stream (i : Instr) (l : Option Label) : (s.accept i l).env.stream = s.env.stream := rfl
@[simp] theorem State.accept_sched (i : Instr) (l : Option Label) : (s.accept i l).env.sched = s.env.sched := rfl
@[simp] theorem State.accept_answers (i : Instr) (l : Option Label) : (s.accept i l).env.answers = s.env.answers := rfl
@[simp] theorem State.accept_draws (i : Instr) (l : Option Label) : (s.accept i l).env.draws = s.env.draws := rfl
@[simp] theorem State.accept_hung (i : Instr) (l : Option Label) : (s.accept i l).env.hung = s.env.hung := rfl
@[simp] theorem State.accept_reply (i : Instr) (l : Option Label) : (s.accept i l).env.reply = some .accepted := rfl
@[simp] theorem State.accept_trace (i : Instr) (l : Option Label) : (s.accept i l).env.trace = s.env.trace := rfl
@[simp] theorem State.accept_dev (i : Instr) (l : Option Label) : (s.accept i l).dev = s.dev := rfl
@[simp] theorem State.accept_settlePending (i : Instr) (l : Option Label) : (s.accept i l).settlePending = s.settlePending := rfl
@[simp] theorem State.accept_params (i : Instr) (l : Option Label) : (s.accept i l).params = s.params := rfl

@[simp] theorem State.finish_phase : (s.finish).ctrl.phase = .done := rfl
@[simp] theorem State.finish_cmd : (s.finish).ctrl.cmd = s.ctrl.cmd := rfl
@[simp] theorem State.finish_seqPc : (s.finish).ctrl.seqPc = none := rfl
@[simp] theorem State.finish_cause : (s.finish).ctrl.cause = s.ctrl.cause := rfl
@[simp] theorem State.finish_causeInner : (s.finish).ctrl.causeInner = s.ctrl.causeInner := rfl
@[simp] theorem State.finish_causeStep : (s.finish).ctrl.causeStep = s.ctrl.causeStep := rfl
@[simp] theorem State.finish_opened : (s.finish).ctrl.opened = s.ctrl.opened := rfl
@[simp] theorem State.finish_bound : (s.finish).ctrl.bound = s.ctrl.bound := rfl
@[simp] theorem State.finish_ready : (s.finish).ctrl.ready = s.ctrl.ready := rfl
@[simp] theorem State.finish_active : (s.finish).ctrl.active = s.ctrl.active := rfl
@[simp] theorem State.finish_offset : (s.finish).ctrl.offset = s.ctrl.offset := rfl
@[simp] theorem State.finish_textw : (s.finish).ctrl.textw = s.ctrl.textw := rfl
@[simp] theorem State.finish_lframe : (s.finish).ctrl.lframe = s.ctrl.lframe := rfl
@[simp] theorem State.finish_pbuf : (s.finish).ctrl.pbuf = s.ctrl.pbuf := rfl
@[simp] theorem State.finish_exit : (s.finish).ctrl.exit = some successExitCode := rfl
@[simp] theorem State.finish_env : (s.finish).env = s.env := rfl
@[simp] theorem State.finish_dev : (s.finish).dev = s.dev := rfl
@[simp] theorem State.finish_settlePending : (s.finish).settlePending = s.settlePending := rfl
@[simp] theorem State.finish_params : (s.finish).params = s.params := rfl

@[simp] theorem State.raise_phase (c n : Byte) (l : Label) : (s.raise c n l).ctrl.phase = .failed := rfl
@[simp] theorem State.raise_cmd (c n : Byte) (l : Label) : (s.raise c n l).ctrl.cmd = s.ctrl.cmd := rfl
@[simp] theorem State.raise_seqPc (c n : Byte) (l : Label) : (s.raise c n l).ctrl.seqPc = none := rfl
@[simp] theorem State.raise_cause (c n : Byte) (l : Label) : (s.raise c n l).ctrl.cause = c := rfl
@[simp] theorem State.raise_causeInner (c n : Byte) (l : Label) : (s.raise c n l).ctrl.causeInner = n := rfl
@[simp] theorem State.raise_causeStep (c n : Byte) (l : Label) : (s.raise c n l).ctrl.causeStep = some l := rfl
@[simp] theorem State.raise_opened (c n : Byte) (l : Label) : (s.raise c n l).ctrl.opened = s.ctrl.opened := rfl
@[simp] theorem State.raise_bound (c n : Byte) (l : Label) : (s.raise c n l).ctrl.bound = s.ctrl.bound := rfl
@[simp] theorem State.raise_ready (c n : Byte) (l : Label) : (s.raise c n l).ctrl.ready = s.ctrl.ready := rfl
@[simp] theorem State.raise_active (c n : Byte) (l : Label) : (s.raise c n l).ctrl.active = s.ctrl.active := rfl
@[simp] theorem State.raise_offset (c n : Byte) (l : Label) : (s.raise c n l).ctrl.offset = s.ctrl.offset := rfl
@[simp] theorem State.raise_textw (c n : Byte) (l : Label) : (s.raise c n l).ctrl.textw = s.ctrl.textw := rfl
@[simp] theorem State.raise_lframe (c n : Byte) (l : Label) : (s.raise c n l).ctrl.lframe = s.ctrl.lframe := rfl
@[simp] theorem State.raise_pbuf (c n : Byte) (l : Label) : (s.raise c n l).ctrl.pbuf = s.ctrl.pbuf := rfl
@[simp] theorem State.raise_exit (c n : Byte) (l : Label) : (s.raise c n l).ctrl.exit = some s.params.failExitCode := rfl
@[simp] theorem State.raise_env (c n : Byte) (l : Label) : (s.raise c n l).env = s.env := rfl
@[simp] theorem State.raise_dev (c n : Byte) (l : Label) : (s.raise c n l).dev = s.dev := rfl
@[simp] theorem State.raise_settlePending (c n : Byte) (l : Label) : (s.raise c n l).settlePending = s.settlePending := rfl
@[simp] theorem State.raise_params (c n : Byte) (l : Label) : (s.raise c n l).params = s.params := rfl

@[simp] theorem State.takeAnswer_ctrl (ev : BusEvent) : (s.takeAnswer ev).ctrl = s.ctrl := rfl
@[simp] theorem State.takeAnswer_stream (ev : BusEvent) : (s.takeAnswer ev).env.stream = s.env.stream := rfl
@[simp] theorem State.takeAnswer_sched (ev : BusEvent) : (s.takeAnswer ev).env.sched = s.env.sched := rfl
@[simp] theorem State.takeAnswer_answers (ev : BusEvent) : (s.takeAnswer ev).env.answers = s.env.answers.tail := rfl
@[simp] theorem State.takeAnswer_draws (ev : BusEvent) : (s.takeAnswer ev).env.draws = s.env.draws + 1 := rfl
@[simp] theorem State.takeAnswer_hung (ev : BusEvent) : (s.takeAnswer ev).env.hung = s.env.hung := rfl
@[simp] theorem State.takeAnswer_reply (ev : BusEvent) : (s.takeAnswer ev).env.reply = s.env.reply := rfl
@[simp] theorem State.takeAnswer_trace (ev : BusEvent) : (s.takeAnswer ev).env.trace = ev :: s.env.trace := rfl
@[simp] theorem State.takeAnswer_dev (ev : BusEvent) : (s.takeAnswer ev).dev = s.dev := rfl
@[simp] theorem State.takeAnswer_settlePending (ev : BusEvent) : (s.takeAnswer ev).settlePending = s.settlePending := rfl
@[simp] theorem State.takeAnswer_params (ev : BusEvent) : (s.takeAnswer ev).params = s.params := rfl

@[simp] theorem State.hang_ctrl : (s.hang).ctrl = s.ctrl := rfl
@[simp] theorem State.hang_stream : (s.hang).env.stream = s.env.stream := rfl
@[simp] theorem State.hang_sched : (s.hang).env.sched = s.env.sched := rfl
@[simp] theorem State.hang_answers : (s.hang).env.answers = s.env.answers := rfl
@[simp] theorem State.hang_draws : (s.hang).env.draws = s.env.draws := rfl
@[simp] theorem State.hang_hung : (s.hang).env.hung = true := rfl
@[simp] theorem State.hang_reply : (s.hang).env.reply = s.env.reply := rfl
@[simp] theorem State.hang_trace : (s.hang).env.trace = s.env.trace := rfl
@[simp] theorem State.hang_dev : (s.hang).dev = s.dev := rfl
@[simp] theorem State.hang_settlePending : (s.hang).settlePending = s.settlePending := rfl
@[simp] theorem State.hang_params : (s.hang).params = s.params := rfl

@[simp] theorem State.waited_ctrl (ms : Nat) : (s.waited ms).ctrl = s.ctrl := rfl
@[simp] theorem State.waited_stream (ms : Nat) : (s.waited ms).env.stream = s.env.stream := rfl
@[simp] theorem State.waited_sched (ms : Nat) : (s.waited ms).env.sched = s.env.sched := rfl
@[simp] theorem State.waited_answers (ms : Nat) : (s.waited ms).env.answers = s.env.answers := rfl
@[simp] theorem State.waited_draws (ms : Nat) : (s.waited ms).env.draws = s.env.draws := rfl
@[simp] theorem State.waited_hung (ms : Nat) : (s.waited ms).env.hung = s.env.hung := rfl
@[simp] theorem State.waited_reply (ms : Nat) : (s.waited ms).env.reply = s.env.reply := rfl
@[simp] theorem State.waited_trace (ms : Nat) : (s.waited ms).env.trace = .wait ms :: s.env.trace := rfl
@[simp] theorem State.waited_dev (ms : Nat) : (s.waited ms).dev = s.dev := rfl
@[simp] theorem State.waited_settlePending (ms : Nat) : (s.waited ms).settlePending = s.settlePending := rfl
@[simp] theorem State.waited_params (ms : Nat) : (s.waited ms).params = s.params := rfl

@[simp] theorem State.clearReady_phase : (s.clearReady).ctrl.phase = s.ctrl.phase := rfl
@[simp] theorem State.clearReady_cmd : (s.clearReady).ctrl.cmd = s.ctrl.cmd := rfl
@[simp] theorem State.clearReady_seqPc : (s.clearReady).ctrl.seqPc = s.ctrl.seqPc := rfl
@[simp] theorem State.clearReady_cause : (s.clearReady).ctrl.cause = s.ctrl.cause := rfl
@[simp] theorem State.clearReady_causeInner : (s.clearReady).ctrl.causeInner = s.ctrl.causeInner := rfl
@[simp] theorem State.clearReady_causeStep : (s.clearReady).ctrl.causeStep = s.ctrl.causeStep := rfl
@[simp] theorem State.clearReady_opened : (s.clearReady).ctrl.opened = s.ctrl.opened := rfl
@[simp] theorem State.clearReady_bound : (s.clearReady).ctrl.bound = s.ctrl.bound := rfl
@[simp] theorem State.clearReady_ready : (s.clearReady).ctrl.ready = 0 := rfl
@[simp] theorem State.clearReady_active : (s.clearReady).ctrl.active = s.ctrl.active := rfl
@[simp] theorem State.clearReady_offset : (s.clearReady).ctrl.offset = s.ctrl.offset := rfl
@[simp] theorem State.clearReady_textw : (s.clearReady).ctrl.textw = s.ctrl.textw := rfl
@[simp] theorem State.clearReady_lframe : (s.clearReady).ctrl.lframe = s.ctrl.lframe := rfl
@[simp] theorem State.clearReady_pbuf : (s.clearReady).ctrl.pbuf = s.ctrl.pbuf := rfl
@[simp] theorem State.clearReady_exit : (s.clearReady).ctrl.exit = s.ctrl.exit := rfl
@[simp] theorem State.clearReady_env : (s.clearReady).env = s.env := rfl
@[simp] theorem State.clearReady_dev : (s.clearReady).dev = s.dev := rfl
@[simp] theorem State.clearReady_settlePending : (s.clearReady).settlePending = s.settlePending := rfl
@[simp] theorem State.clearReady_params : (s.clearReady).params = s.params := rfl

@[simp] theorem State.setReady_phase : (s.setReady).ctrl.phase = s.ctrl.phase := rfl
@[simp] theorem State.setReady_cmd : (s.setReady).ctrl.cmd = s.ctrl.cmd := rfl
@[simp] theorem State.setReady_seqPc : (s.setReady).ctrl.seqPc = s.ctrl.seqPc := rfl
@[simp] theorem State.setReady_cause : (s.setReady).ctrl.cause = s.ctrl.cause := rfl
@[simp] theorem State.setReady_causeInner : (s.setReady).ctrl.causeInner = s.ctrl.causeInner := rfl
@[simp] theorem State.setReady_causeStep : (s.setReady).ctrl.causeStep = s.ctrl.causeStep := rfl
@[simp] theorem State.setReady_opened : (s.setReady).ctrl.opened = s.ctrl.opened := rfl
@[simp] theorem State.setReady_bound : (s.setReady).ctrl.bound = s.ctrl.bound := rfl
@[simp] theorem State.setReady_ready : (s.setReady).ctrl.ready = 1 := rfl
@[simp] theorem State.setReady_active : (s.setReady).ctrl.active = s.ctrl.active := rfl
@[simp] theorem State.setReady_offset : (s.setReady).ctrl.offset = s.ctrl.offset := rfl
@[simp] theorem State.setReady_textw : (s.setReady).ctrl.textw = s.ctrl.textw := rfl
@[simp] theorem State.setReady_lframe : (s.setReady).ctrl.lframe = s.ctrl.lframe := rfl
@[simp] theorem State.setReady_pbuf : (s.setReady).ctrl.pbuf = s.ctrl.pbuf := rfl
@[simp] theorem State.setReady_exit : (s.setReady).ctrl.exit = s.ctrl.exit := rfl
@[simp] theorem State.setReady_env : (s.setReady).env = s.env := rfl
@[simp] theorem State.setReady_dev : (s.setReady).dev = s.dev := rfl
@[simp] theorem State.setReady_settlePending : (s.setReady).settlePending = s.settlePending := rfl
@[simp] theorem State.setReady_params : (s.setReady).params = s.params := rfl

@[simp] theorem State.setOpened_phase : (s.setOpened).ctrl.phase = s.ctrl.phase := rfl
@[simp] theorem State.setOpened_cmd : (s.setOpened).ctrl.cmd = s.ctrl.cmd := rfl
@[simp] theorem State.setOpened_seqPc : (s.setOpened).ctrl.seqPc = s.ctrl.seqPc := rfl
@[simp] theorem State.setOpened_cause : (s.setOpened).ctrl.cause = s.ctrl.cause := rfl
@[simp] theorem State.setOpened_causeInner : (s.setOpened).ctrl.causeInner = s.ctrl.causeInner := rfl
@[simp] theorem State.setOpened_causeStep : (s.setOpened).ctrl.causeStep = s.ctrl.causeStep := rfl
@[simp] theorem State.setOpened_opened : (s.setOpened).ctrl.opened = 1 := rfl
@[simp] theorem State.setOpened_bound : (s.setOpened).ctrl.bound = s.ctrl.bound := rfl
@[simp] theorem State.setOpened_ready : (s.setOpened).ctrl.ready = s.ctrl.ready := rfl
@[simp] theorem State.setOpened_active : (s.setOpened).ctrl.active = s.ctrl.active := rfl
@[simp] theorem State.setOpened_offset : (s.setOpened).ctrl.offset = s.ctrl.offset := rfl
@[simp] theorem State.setOpened_textw : (s.setOpened).ctrl.textw = s.ctrl.textw := rfl
@[simp] theorem State.setOpened_lframe : (s.setOpened).ctrl.lframe = s.ctrl.lframe := rfl
@[simp] theorem State.setOpened_pbuf : (s.setOpened).ctrl.pbuf = s.ctrl.pbuf := rfl
@[simp] theorem State.setOpened_exit : (s.setOpened).ctrl.exit = s.ctrl.exit := rfl
@[simp] theorem State.setOpened_env : (s.setOpened).env = s.env := rfl
@[simp] theorem State.setOpened_dev : (s.setOpened).dev = s.dev := rfl
@[simp] theorem State.setOpened_settlePending : (s.setOpened).settlePending = s.settlePending := rfl
@[simp] theorem State.setOpened_params : (s.setOpened).params = s.params := rfl

@[simp] theorem State.setBound_phase : (s.setBound).ctrl.phase = s.ctrl.phase := rfl
@[simp] theorem State.setBound_cmd : (s.setBound).ctrl.cmd = s.ctrl.cmd := rfl
@[simp] theorem State.setBound_seqPc : (s.setBound).ctrl.seqPc = s.ctrl.seqPc := rfl
@[simp] theorem State.setBound_cause : (s.setBound).ctrl.cause = s.ctrl.cause := rfl
@[simp] theorem State.setBound_causeInner : (s.setBound).ctrl.causeInner = s.ctrl.causeInner := rfl
@[simp] theorem State.setBound_causeStep : (s.setBound).ctrl.causeStep = s.ctrl.causeStep := rfl
@[simp] theorem State.setBound_opened : (s.setBound).ctrl.opened = s.ctrl.opened := rfl
@[simp] theorem State.setBound_bound : (s.setBound).ctrl.bound = 1 := rfl
@[simp] theorem State.setBound_ready : (s.setBound).ctrl.ready = s.ctrl.ready := rfl
@[simp] theorem State.setBound_active : (s.setBound).ctrl.active = s.ctrl.active := rfl
@[simp] theorem State.setBound_offset : (s.setBound).ctrl.offset = s.ctrl.offset := rfl
@[simp] theorem State.setBound_textw : (s.setBound).ctrl.textw = s.ctrl.textw := rfl
@[simp] theorem State.setBound_lframe : (s.setBound).ctrl.lframe = s.ctrl.lframe := rfl
@[simp] theorem State.setBound_pbuf : (s.setBound).ctrl.pbuf = s.ctrl.pbuf := rfl
@[simp] theorem State.setBound_exit : (s.setBound).ctrl.exit = s.ctrl.exit := rfl
@[simp] theorem State.setBound_env : (s.setBound).env = s.env := rfl
@[simp] theorem State.setBound_dev : (s.setBound).dev = s.dev := rfl
@[simp] theorem State.setBound_settlePending : (s.setBound).settlePending = s.settlePending := rfl
@[simp] theorem State.setBound_params : (s.setBound).params = s.params := rfl

@[simp] theorem State.mapBuffer_phase : (s.mapBuffer).ctrl.phase = s.ctrl.phase := rfl
@[simp] theorem State.mapBuffer_cmd : (s.mapBuffer).ctrl.cmd = s.ctrl.cmd := rfl
@[simp] theorem State.mapBuffer_seqPc : (s.mapBuffer).ctrl.seqPc = s.ctrl.seqPc := rfl
@[simp] theorem State.mapBuffer_cause : (s.mapBuffer).ctrl.cause = s.ctrl.cause := rfl
@[simp] theorem State.mapBuffer_causeInner : (s.mapBuffer).ctrl.causeInner = s.ctrl.causeInner := rfl
@[simp] theorem State.mapBuffer_causeStep : (s.mapBuffer).ctrl.causeStep = s.ctrl.causeStep := rfl
@[simp] theorem State.mapBuffer_opened : (s.mapBuffer).ctrl.opened = s.ctrl.opened := rfl
@[simp] theorem State.mapBuffer_bound : (s.mapBuffer).ctrl.bound = s.ctrl.bound := rfl
@[simp] theorem State.mapBuffer_ready : (s.mapBuffer).ctrl.ready = s.ctrl.ready := rfl
@[simp] theorem State.mapBuffer_active : (s.mapBuffer).ctrl.active = s.ctrl.active := rfl
@[simp] theorem State.mapBuffer_offset : (s.mapBuffer).ctrl.offset = s.ctrl.offset := rfl
@[simp] theorem State.mapBuffer_textw : (s.mapBuffer).ctrl.textw = s.ctrl.textw := rfl
@[simp] theorem State.mapBuffer_lframe : (s.mapBuffer).ctrl.lframe = s.ctrl.lframe := rfl
@[simp] theorem State.mapBuffer_pbuf : (s.mapBuffer).ctrl.pbuf = mapFrame s.ctrl.lframe := by simp only [State.mapBuffer]
@[simp] theorem State.mapBuffer_exit : (s.mapBuffer).ctrl.exit = s.ctrl.exit := rfl
@[simp] theorem State.mapBuffer_env : (s.mapBuffer).env = s.env := rfl
@[simp] theorem State.mapBuffer_dev : (s.mapBuffer).dev = s.dev := rfl
@[simp] theorem State.mapBuffer_settlePending : (s.mapBuffer).settlePending = s.settlePending := rfl
@[simp] theorem State.mapBuffer_params : (s.mapBuffer).params = s.params := rfl

@[simp] theorem State.initScroll_phase : (s.initScroll).ctrl.phase = s.ctrl.phase := rfl
@[simp] theorem State.initScroll_cmd : (s.initScroll).ctrl.cmd = s.ctrl.cmd := rfl
@[simp] theorem State.initScroll_seqPc : (s.initScroll).ctrl.seqPc = s.ctrl.seqPc := rfl
@[simp] theorem State.initScroll_cause : (s.initScroll).ctrl.cause = s.ctrl.cause := rfl
@[simp] theorem State.initScroll_causeInner : (s.initScroll).ctrl.causeInner = s.ctrl.causeInner := rfl
@[simp] theorem State.initScroll_causeStep : (s.initScroll).ctrl.causeStep = s.ctrl.causeStep := rfl
@[simp] theorem State.initScroll_opened : (s.initScroll).ctrl.opened = s.ctrl.opened := rfl
@[simp] theorem State.initScroll_bound : (s.initScroll).ctrl.bound = s.ctrl.bound := rfl
@[simp] theorem State.initScroll_ready : (s.initScroll).ctrl.ready = s.ctrl.ready := rfl
@[simp] theorem State.initScroll_active : (s.initScroll).ctrl.active = 0 := rfl
@[simp] theorem State.initScroll_offset : (s.initScroll).ctrl.offset = 0 := rfl
@[simp] theorem State.initScroll_textw : (s.initScroll).ctrl.textw = 0 := rfl
@[simp] theorem State.initScroll_lframe : (s.initScroll).ctrl.lframe = s.ctrl.lframe := rfl
@[simp] theorem State.initScroll_pbuf : (s.initScroll).ctrl.pbuf = s.ctrl.pbuf := rfl
@[simp] theorem State.initScroll_exit : (s.initScroll).ctrl.exit = s.ctrl.exit := rfl
@[simp] theorem State.initScroll_env : (s.initScroll).env = s.env := rfl
@[simp] theorem State.initScroll_dev : (s.initScroll).dev = s.dev := rfl
@[simp] theorem State.initScroll_settlePending : (s.initScroll).settlePending = s.settlePending := rfl
@[simp] theorem State.initScroll_params : (s.initScroll).params = s.params := rfl

@[simp] theorem State.toggleActive_phase : (s.toggleActive).ctrl.phase = s.ctrl.phase := rfl
@[simp] theorem State.toggleActive_cmd : (s.toggleActive).ctrl.cmd = s.ctrl.cmd := rfl
@[simp] theorem State.toggleActive_seqPc : (s.toggleActive).ctrl.seqPc = s.ctrl.seqPc := rfl
@[simp] theorem State.toggleActive_cause : (s.toggleActive).ctrl.cause = s.ctrl.cause := rfl
@[simp] theorem State.toggleActive_causeInner : (s.toggleActive).ctrl.causeInner = s.ctrl.causeInner := rfl
@[simp] theorem State.toggleActive_causeStep : (s.toggleActive).ctrl.causeStep = s.ctrl.causeStep := rfl
@[simp] theorem State.toggleActive_opened : (s.toggleActive).ctrl.opened = s.ctrl.opened := rfl
@[simp] theorem State.toggleActive_bound : (s.toggleActive).ctrl.bound = s.ctrl.bound := rfl
@[simp] theorem State.toggleActive_ready : (s.toggleActive).ctrl.ready = s.ctrl.ready := rfl
@[simp] theorem State.toggleActive_active : (s.toggleActive).ctrl.active = s.ctrl.active ^^^ 1 := rfl
@[simp] theorem State.toggleActive_offset : (s.toggleActive).ctrl.offset = s.ctrl.offset := rfl
@[simp] theorem State.toggleActive_textw : (s.toggleActive).ctrl.textw = s.ctrl.textw := rfl
@[simp] theorem State.toggleActive_lframe : (s.toggleActive).ctrl.lframe = s.ctrl.lframe := rfl
@[simp] theorem State.toggleActive_pbuf : (s.toggleActive).ctrl.pbuf = s.ctrl.pbuf := rfl
@[simp] theorem State.toggleActive_exit : (s.toggleActive).ctrl.exit = s.ctrl.exit := rfl
@[simp] theorem State.toggleActive_env : (s.toggleActive).env = s.env := rfl
@[simp] theorem State.toggleActive_dev : (s.toggleActive).dev = s.dev := rfl
@[simp] theorem State.toggleActive_settlePending : (s.toggleActive).settlePending = s.settlePending := rfl
@[simp] theorem State.toggleActive_params : (s.toggleActive).params = s.params := rfl

@[simp] theorem State.stepOffset_phase : (s.stepOffset).ctrl.phase = s.ctrl.phase := rfl
@[simp] theorem State.stepOffset_cmd : (s.stepOffset).ctrl.cmd = s.ctrl.cmd := rfl
@[simp] theorem State.stepOffset_seqPc : (s.stepOffset).ctrl.seqPc = s.ctrl.seqPc := rfl
@[simp] theorem State.stepOffset_cause : (s.stepOffset).ctrl.cause = s.ctrl.cause := rfl
@[simp] theorem State.stepOffset_causeInner : (s.stepOffset).ctrl.causeInner = s.ctrl.causeInner := rfl
@[simp] theorem State.stepOffset_causeStep : (s.stepOffset).ctrl.causeStep = s.ctrl.causeStep := rfl
@[simp] theorem State.stepOffset_opened : (s.stepOffset).ctrl.opened = s.ctrl.opened := rfl
@[simp] theorem State.stepOffset_bound : (s.stepOffset).ctrl.bound = s.ctrl.bound := rfl
@[simp] theorem State.stepOffset_ready : (s.stepOffset).ctrl.ready = s.ctrl.ready := rfl
@[simp] theorem State.stepOffset_active : (s.stepOffset).ctrl.active = s.ctrl.active := rfl
@[simp] theorem State.stepOffset_offset : (s.stepOffset).ctrl.offset = s.ctrl.offset - 1 := rfl
@[simp] theorem State.stepOffset_textw : (s.stepOffset).ctrl.textw = s.ctrl.textw := rfl
@[simp] theorem State.stepOffset_lframe : (s.stepOffset).ctrl.lframe = s.ctrl.lframe := rfl
@[simp] theorem State.stepOffset_pbuf : (s.stepOffset).ctrl.pbuf = s.ctrl.pbuf := rfl
@[simp] theorem State.stepOffset_exit : (s.stepOffset).ctrl.exit = s.ctrl.exit := rfl
@[simp] theorem State.stepOffset_env : (s.stepOffset).env = s.env := rfl
@[simp] theorem State.stepOffset_dev : (s.stepOffset).dev = s.dev := rfl
@[simp] theorem State.stepOffset_settlePending : (s.stepOffset).settlePending = s.settlePending := rfl
@[simp] theorem State.stepOffset_params : (s.stepOffset).params = s.params := rfl

@[simp] theorem State.renderFrame_phase : (s.renderFrame).ctrl.phase = s.ctrl.phase := rfl
@[simp] theorem State.renderFrame_cmd : (s.renderFrame).ctrl.cmd = s.ctrl.cmd := rfl
@[simp] theorem State.renderFrame_seqPc : (s.renderFrame).ctrl.seqPc = s.ctrl.seqPc := rfl
@[simp] theorem State.renderFrame_cause : (s.renderFrame).ctrl.cause = s.ctrl.cause := rfl
@[simp] theorem State.renderFrame_causeInner : (s.renderFrame).ctrl.causeInner = s.ctrl.causeInner := rfl
@[simp] theorem State.renderFrame_causeStep : (s.renderFrame).ctrl.causeStep = s.ctrl.causeStep := rfl
@[simp] theorem State.renderFrame_opened : (s.renderFrame).ctrl.opened = s.ctrl.opened := rfl
@[simp] theorem State.renderFrame_bound : (s.renderFrame).ctrl.bound = s.ctrl.bound := rfl
@[simp] theorem State.renderFrame_ready : (s.renderFrame).ctrl.ready = s.ctrl.ready := rfl
@[simp] theorem State.renderFrame_active : (s.renderFrame).ctrl.active = s.ctrl.active := rfl
@[simp] theorem State.renderFrame_offset : (s.renderFrame).ctrl.offset = s.ctrl.offset := rfl
@[simp] theorem State.renderFrame_textw : (s.renderFrame).ctrl.textw = BitVec.ofInt 32 (render s.params (s.ctrl.offset + windowWidth).toInt).2 := rfl
@[simp] theorem State.renderFrame_lframe : (s.renderFrame).ctrl.lframe = (render s.params (s.ctrl.offset + windowWidth).toInt).1 := rfl
@[simp] theorem State.renderFrame_pbuf : (s.renderFrame).ctrl.pbuf = s.ctrl.pbuf := rfl
@[simp] theorem State.renderFrame_exit : (s.renderFrame).ctrl.exit = s.ctrl.exit := rfl
@[simp] theorem State.renderFrame_env : (s.renderFrame).env = s.env := rfl
@[simp] theorem State.renderFrame_dev : (s.renderFrame).dev = s.dev := rfl
@[simp] theorem State.renderFrame_settlePending : (s.renderFrame).settlePending = s.settlePending := rfl
@[simp] theorem State.renderFrame_params : (s.renderFrame).params = s.params := rfl

@[simp] theorem State.loadFrame_phase (f : List Byte) : (s.loadFrame f).ctrl.phase = s.ctrl.phase := rfl
@[simp] theorem State.loadFrame_cmd (f : List Byte) : (s.loadFrame f).ctrl.cmd = s.ctrl.cmd := rfl
@[simp] theorem State.loadFrame_seqPc (f : List Byte) : (s.loadFrame f).ctrl.seqPc = s.ctrl.seqPc := rfl
@[simp] theorem State.loadFrame_cause (f : List Byte) : (s.loadFrame f).ctrl.cause = s.ctrl.cause := rfl
@[simp] theorem State.loadFrame_causeInner (f : List Byte) : (s.loadFrame f).ctrl.causeInner = s.ctrl.causeInner := rfl
@[simp] theorem State.loadFrame_causeStep (f : List Byte) : (s.loadFrame f).ctrl.causeStep = s.ctrl.causeStep := rfl
@[simp] theorem State.loadFrame_opened (f : List Byte) : (s.loadFrame f).ctrl.opened = s.ctrl.opened := rfl
@[simp] theorem State.loadFrame_bound (f : List Byte) : (s.loadFrame f).ctrl.bound = s.ctrl.bound := rfl
@[simp] theorem State.loadFrame_ready (f : List Byte) : (s.loadFrame f).ctrl.ready = s.ctrl.ready := rfl
@[simp] theorem State.loadFrame_active (f : List Byte) : (s.loadFrame f).ctrl.active = s.ctrl.active := rfl
@[simp] theorem State.loadFrame_offset (f : List Byte) : (s.loadFrame f).ctrl.offset = s.ctrl.offset := rfl
@[simp] theorem State.loadFrame_textw (f : List Byte) : (s.loadFrame f).ctrl.textw = s.ctrl.textw := rfl
@[simp] theorem State.loadFrame_lframe (f : List Byte) : (s.loadFrame f).ctrl.lframe = frameOfBytes f := by simp only [State.loadFrame]
@[simp] theorem State.loadFrame_pbuf (f : List Byte) : (s.loadFrame f).ctrl.pbuf = s.ctrl.pbuf := rfl
@[simp] theorem State.loadFrame_exit (f : List Byte) : (s.loadFrame f).ctrl.exit = s.ctrl.exit := rfl
@[simp] theorem State.loadFrame_env (f : List Byte) : (s.loadFrame f).env = s.env := rfl
@[simp] theorem State.loadFrame_dev (f : List Byte) : (s.loadFrame f).dev = s.dev := rfl
@[simp] theorem State.loadFrame_settlePending (f : List Byte) : (s.loadFrame f).settlePending = s.settlePending := rfl
@[simp] theorem State.loadFrame_params (f : List Byte) : (s.loadFrame f).params = s.params := rfl

@[simp] theorem State.withStream_ctrl (bs : List Byte) : (s.withStream bs).ctrl = s.ctrl := rfl
@[simp] theorem State.withStream_stream (bs : List Byte) : (s.withStream bs).env.stream = bs := rfl
@[simp] theorem State.withStream_sched (bs : List Byte) : (s.withStream bs).env.sched = s.env.sched := rfl
@[simp] theorem State.withStream_answers (bs : List Byte) : (s.withStream bs).env.answers = s.env.answers := rfl
@[simp] theorem State.withStream_draws (bs : List Byte) : (s.withStream bs).env.draws = s.env.draws := rfl
@[simp] theorem State.withStream_hung (bs : List Byte) : (s.withStream bs).env.hung = s.env.hung := rfl
@[simp] theorem State.withStream_reply (bs : List Byte) : (s.withStream bs).env.reply = s.env.reply := rfl
@[simp] theorem State.withStream_trace (bs : List Byte) : (s.withStream bs).env.trace = s.env.trace := rfl
@[simp] theorem State.withStream_dev (bs : List Byte) : (s.withStream bs).dev = s.dev := rfl
@[simp] theorem State.withStream_settlePending (bs : List Byte) : (s.withStream bs).settlePending = s.settlePending := rfl
@[simp] theorem State.withStream_params (bs : List Byte) : (s.withStream bs).params = s.params := rfl

@[simp] theorem State.withSched_ctrl (evs : List EnvEvent) : (s.withSched evs).ctrl = s.ctrl := rfl
@[simp] theorem State.withSched_stream (evs : List EnvEvent) : (s.withSched evs).env.stream = s.env.stream := rfl
@[simp] theorem State.withSched_sched (evs : List EnvEvent) : (s.withSched evs).env.sched = evs := rfl
@[simp] theorem State.withSched_answers (evs : List EnvEvent) : (s.withSched evs).env.answers = s.env.answers := rfl
@[simp] theorem State.withSched_draws (evs : List EnvEvent) : (s.withSched evs).env.draws = s.env.draws := rfl
@[simp] theorem State.withSched_hung (evs : List EnvEvent) : (s.withSched evs).env.hung = s.env.hung := rfl
@[simp] theorem State.withSched_reply (evs : List EnvEvent) : (s.withSched evs).env.reply = s.env.reply := rfl
@[simp] theorem State.withSched_trace (evs : List EnvEvent) : (s.withSched evs).env.trace = s.env.trace := rfl
@[simp] theorem State.withSched_dev (evs : List EnvEvent) : (s.withSched evs).dev = s.dev := rfl
@[simp] theorem State.withSched_settlePending (evs : List EnvEvent) : (s.withSched evs).settlePending = s.settlePending := rfl
@[simp] theorem State.withSched_params (evs : List EnvEvent) : (s.withSched evs).params = s.params := rfl

@[simp] theorem State.goto_phase (n : Option Label) : (s.goto n).ctrl.phase = if n = none then .idle else s.ctrl.phase := by cases n <;> rfl
@[simp] theorem State.goto_cmd (n : Option Label) : (s.goto n).ctrl.cmd = s.ctrl.cmd := by cases n <;> rfl
@[simp] theorem State.goto_seqPc (n : Option Label) : (s.goto n).ctrl.seqPc = n := by cases n <;> rfl
@[simp] theorem State.goto_cause (n : Option Label) : (s.goto n).ctrl.cause = s.ctrl.cause := by cases n <;> rfl
@[simp] theorem State.goto_causeInner (n : Option Label) : (s.goto n).ctrl.causeInner = s.ctrl.causeInner := by cases n <;> rfl
@[simp] theorem State.goto_causeStep (n : Option Label) : (s.goto n).ctrl.causeStep = s.ctrl.causeStep := by cases n <;> rfl
@[simp] theorem State.goto_opened (n : Option Label) : (s.goto n).ctrl.opened = s.ctrl.opened := by cases n <;> rfl
@[simp] theorem State.goto_bound (n : Option Label) : (s.goto n).ctrl.bound = s.ctrl.bound := by cases n <;> rfl
@[simp] theorem State.goto_ready (n : Option Label) : (s.goto n).ctrl.ready = s.ctrl.ready := by cases n <;> rfl
@[simp] theorem State.goto_active (n : Option Label) : (s.goto n).ctrl.active = s.ctrl.active := by cases n <;> rfl
@[simp] theorem State.goto_offset (n : Option Label) : (s.goto n).ctrl.offset = s.ctrl.offset := by cases n <;> rfl
@[simp] theorem State.goto_textw (n : Option Label) : (s.goto n).ctrl.textw = s.ctrl.textw := by cases n <;> rfl
@[simp] theorem State.goto_lframe (n : Option Label) : (s.goto n).ctrl.lframe = s.ctrl.lframe := by cases n <;> rfl
@[simp] theorem State.goto_pbuf (n : Option Label) : (s.goto n).ctrl.pbuf = s.ctrl.pbuf := by cases n <;> rfl
@[simp] theorem State.goto_exit (n : Option Label) : (s.goto n).ctrl.exit = s.ctrl.exit := by cases n <;> rfl
@[simp] theorem State.goto_env (n : Option Label) : (s.goto n).env = s.env := by cases n <;> rfl
@[simp] theorem State.goto_dev (n : Option Label) : (s.goto n).dev = s.dev := by cases n <;> rfl
@[simp] theorem State.goto_settlePending (n : Option Label) : (s.goto n).settlePending = s.settlePending := by cases n <;> rfl
@[simp] theorem State.goto_params (n : Option Label) : (s.goto n).params = s.params := by cases n <;> rfl

@[simp] theorem State.settleAfter_ctrl (l : Label) : (s.settleAfter l).ctrl = s.ctrl := by unfold State.settleAfter; split <;> rfl
@[simp] theorem State.settleAfter_env (l : Label) : (s.settleAfter l).env = s.env := by unfold State.settleAfter; split <;> rfl
@[simp] theorem State.settleAfter_dev (l : Label) : (s.settleAfter l).dev = s.dev := by unfold State.settleAfter; split <;> rfl
@[simp] theorem State.settleAfter_params (l : Label) : (s.settleAfter l).params = s.params := by unfold State.settleAfter; split <;> rfl

@[simp] theorem State.settleAfter_settlePending (l : Label) :
    (s.settleAfter l).settlePending = if l = .S5 then false else s.settlePending := by
  unfold State.settleAfter; split <;> simp_all

@[simp] theorem State.enterSetup_phase (n : Option Label) : (s.enterSetup n).ctrl.phase = s.ctrl.phase := by unfold State.enterSetup; split <;> simp_all
@[simp] theorem State.enterSetup_cmd (n : Option Label) : (s.enterSetup n).ctrl.cmd = s.ctrl.cmd := by unfold State.enterSetup; split <;> simp_all
@[simp] theorem State.enterSetup_seqPc (n : Option Label) : (s.enterSetup n).ctrl.seqPc = s.ctrl.seqPc := by unfold State.enterSetup; split <;> simp_all
@[simp] theorem State.enterSetup_cause (n : Option Label) : (s.enterSetup n).ctrl.cause = s.ctrl.cause := by unfold State.enterSetup; split <;> simp_all
@[simp] theorem State.enterSetup_causeInner (n : Option Label) : (s.enterSetup n).ctrl.causeInner = s.ctrl.causeInner := by unfold State.enterSetup; split <;> simp_all
@[simp] theorem State.enterSetup_causeStep (n : Option Label) : (s.enterSetup n).ctrl.causeStep = s.ctrl.causeStep := by unfold State.enterSetup; split <;> simp_all
@[simp] theorem State.enterSetup_opened (n : Option Label) : (s.enterSetup n).ctrl.opened = s.ctrl.opened := by unfold State.enterSetup; split <;> simp_all
@[simp] theorem State.enterSetup_bound (n : Option Label) : (s.enterSetup n).ctrl.bound = s.ctrl.bound := by unfold State.enterSetup; split <;> simp_all
@[simp] theorem State.enterSetup_ready (n : Option Label) : (s.enterSetup n).ctrl.ready = if n = some .S1 then 0 else s.ctrl.ready := by unfold State.enterSetup; split <;> simp_all
@[simp] theorem State.enterSetup_active (n : Option Label) : (s.enterSetup n).ctrl.active = s.ctrl.active := by unfold State.enterSetup; split <;> simp_all
@[simp] theorem State.enterSetup_offset (n : Option Label) : (s.enterSetup n).ctrl.offset = s.ctrl.offset := by unfold State.enterSetup; split <;> simp_all
@[simp] theorem State.enterSetup_textw (n : Option Label) : (s.enterSetup n).ctrl.textw = s.ctrl.textw := by unfold State.enterSetup; split <;> simp_all
@[simp] theorem State.enterSetup_lframe (n : Option Label) : (s.enterSetup n).ctrl.lframe = s.ctrl.lframe := by unfold State.enterSetup; split <;> simp_all
@[simp] theorem State.enterSetup_pbuf (n : Option Label) : (s.enterSetup n).ctrl.pbuf = s.ctrl.pbuf := by unfold State.enterSetup; split <;> simp_all
@[simp] theorem State.enterSetup_exit (n : Option Label) : (s.enterSetup n).ctrl.exit = s.ctrl.exit := by unfold State.enterSetup; split <;> simp_all
@[simp] theorem State.enterSetup_env (n : Option Label) : (s.enterSetup n).env = s.env := by unfold State.enterSetup; split <;> simp_all
@[simp] theorem State.enterSetup_dev (n : Option Label) : (s.enterSetup n).dev = s.dev := by unfold State.enterSetup; split <;> simp_all
@[simp] theorem State.enterSetup_settlePending (n : Option Label) : (s.enterSetup n).settlePending = s.settlePending := by unfold State.enterSetup; split <;> simp_all
@[simp] theorem State.enterSetup_params (n : Option Label) : (s.enterSetup n).params = s.params := by unfold State.enterSetup; split <;> simp_all

end Sys2Proof.Machine
end

