-- ==== Sys2Proof/Laws/Transfer.lean ====
section
/-! SUPPORT. What a transfer does to the device, said once: where its bytes land, what stays, and when R66 gives it no
meaning (20_memory.md R64, R66, R72). -/

namespace Sys2Proof.Machine

open Sys2Proof.Config

variable {s : State} {c : Params} {b a : Byte} {n m : Nat} {t u : Target} {v : Option Byte} {vs : List (Option Byte)}

/-! ### The address map -/

/-- A target names one address of its bank. -/
theorem target_injective (hn : target c b n = some t) (hm : target c b m = some t) : n = m := by
  unfold target frameTarget configTarget inEnableArea inColorArea at hn hm
  split_ifs at hn hm <;> simp_all <;> grind

/-- The second key part of a target of the device's map stays below 256. -/
def Target.small : Target → Bool
  | .enable _ j => j < 256
  | .color _ i => i < 256
  | .mode | .frame | .audioSync | .shutdown => true

theorem target_small (hn : n ≤ 0xFF) (h : target c b n = some t) : t.small = true := by
  unfold target frameTarget configTarget at h
  split_ifs at h <;> simp_all <;> subst h <;> simp [Target.small] <;> omega

theorem target_exists (h : target c b n = some t) : t.exists c = true := by
  have hb : isFrameBank b = true → b.toNat < 2 := by
    unfold isFrameBank
    simp only [Bool.or_eq_true, beq_iff_eq]
    rintro (rfl | rfl) <;> decide
  unfold target frameTarget configTarget inEnableArea inColorArea at h
  split_ifs at h <;> cases h <;> first | rfl | skip
  all_goals
    have := hb ‹_›
    simp only [Target.exists, Bool.and_eq_true, decide_eq_true_iff] at *
    simp only [numFrameBanks, pbufLen] at *
    exact ⟨this, by omega⟩

/-! ### One register written -/

@[simp] theorem writeTarget_ctrl : (writeTarget t v s).ctrl = s.ctrl := by cases t <;> rfl
@[simp] theorem writeTarget_env : (writeTarget t v s).env = s.env := by cases t <;> rfl
@[simp] theorem writeTarget_params : (writeTarget t v s).params = s.params := by cases t <;> rfl
@[simp] theorem writeTarget_banksel : (writeTarget t v s).dev.banksel = s.dev.banksel := by cases t <;> rfl

theorem readTarget_writeTarget (ht : t.small = true) (hu : u.small = true) :
    (writeTarget t v s).dev.readTarget u = if u = t then v else s.dev.readTarget u := by
  cases t <;> cases u <;>
    simp [writeTarget, Dev.readTarget, Dev.enableByte, Dev.colorByte, Memory.read_write, Target.small] at * <;>
    (congr 1; simp; omega)

theorem settlePending_writeTarget :
    (writeTarget t v s).settlePending =
      (s.settlePending || (t == .shutdown && v == some shutdownOffValue && s.ctrl.seqPc != some .S2)) := by
  cases t <;> simp [writeTarget]

/-! ### A payload written -/

@[simp] theorem writePayload_ctrl : (writePayload b n vs s).ctrl = s.ctrl := by
  induction vs generalizing n s with
  | nil => rfl
  | cons v vs ih => rw [writePayload, ih]; split <;> simp

@[simp] theorem writePayload_env : (writePayload b n vs s).env = s.env := by
  induction vs generalizing n s with
  | nil => rfl
  | cons v vs ih => rw [writePayload, ih]; split <;> simp

@[simp] theorem writePayload_params : (writePayload b n vs s).params = s.params := by
  induction vs generalizing n s with
  | nil => rfl
  | cons v vs ih => rw [writePayload, ih]; split <;> simp

@[simp] theorem writePayload_banksel : (writePayload b n vs s).dev.banksel = s.dev.banksel := by
  induction vs generalizing n s with
  | nil => rfl
  | cons v vs ih => rw [writePayload, ih]; split <;> simp

/-- A register that no address of the payload names keeps its value. -/
theorem readTarget_writePayload_other (hn : n + vs.length ≤ 256) (hu : u.small = true)
    (h : ∀ k < vs.length, target s.params b (n + k) ≠ some u) :
    (writePayload b n vs s).dev.readTarget u = s.dev.readTarget u := by
  induction vs generalizing n s with
  | nil => rfl
  | cons v vs ih =>
    rw [writePayload]
    simp only [List.length_cons] at hn h
    have h0 : target s.params b n ≠ some u := h 0 (by omega)
    rw [ih (by omega)]
    · split
      · rename_i t ht
        rw [readTarget_writeTarget (target_small (by omega) ht) hu, if_neg]
        rintro rfl; exact h0 ht
      · rfl
    · intro k hk
      have := h (k + 1) (by omega)
      rw [show n + 1 + k = n + (k + 1) by omega]
      split <;> simpa using this

/-- The register that the payload's k-th address names holds the payload's k-th byte. -/
theorem readTarget_writePayload_same (hn : n + vs.length ≤ 256) {k : Nat} (hk : k < vs.length)
    (h : target s.params b (n + k) = some u) :
    (writePayload b n vs s).dev.readTarget u = vs[k] := by
  induction vs generalizing n s k with
  | nil => simp at hk
  | cons v vs ih =>
    rw [writePayload]
    simp only [List.length_cons] at hn hk
    have hu : u.small = true := target_small (by omega) h
    cases k with
    | zero =>
      rw [Nat.add_zero] at h
      rw [readTarget_writePayload_other (by omega) hu]
      · simp [h, readTarget_writeTarget hu hu]
      · intro k hk h'
        have : n = n + 1 + k := target_injective h (by simpa [h] using h')
        omega
    | succ k =>
      rw [ih (by omega) (k := k) (by omega)]
      · rfl
      · rw [show n + 1 + k = n + (k + 1) by omega]
        split <;> simpa using h

/-! ### A transfer stored -/

@[simp] theorem storeTransfer_ctrl : (storeTransfer a vs s).ctrl = s.ctrl := by
  unfold storeTransfer; repeat' (first | split | simp)
@[simp] theorem storeTransfer_env : (storeTransfer a vs s).env = s.env := by
  unfold storeTransfer; repeat' (first | split | simp)
@[simp] theorem storeTransfer_params : (storeTransfer a vs s).params = s.params := by
  unfold storeTransfer; repeat' (first | split | simp)

/-- A bank select changes `BANKSEL` alone. -/
theorem storeTransfer_select : storeTransfer s.params.bankRegister [v] s = { s with dev := { s.dev with banksel := v } } := by
  simp [storeTransfer]

theorem storeTransfer_banksel (h : a ≠ s.params.bankRegister) :
    (storeTransfer a vs s).dev.banksel = s.dev.banksel := by
  unfold storeTransfer; rw [if_neg h]; split <;> simp_all

/-- A bank-relative transfer writes its payload in the selected bank. -/
theorem storeTransfer_relative (h : a ≠ s.params.bankRegister) (hb : s.dev.banksel = some b) :
    storeTransfer a vs s = writePayload b a.toNat vs s := by
  simp [storeTransfer, h, hb]

/-! ### R66's checks -/

theorem span_iff {P : Nat → Bool} : span P n m = true ↔ ∀ k < m, P (n + k) = true := by
  simp [span]

/-- A bank-relative transfer that R66 accepts: the bank is known and modelled, the addresses end at or below 0xFF, and
each names a register. -/
theorem transferFault_none_relative (h : a ≠ c.bankRegister) {sel : Option Byte} :
    transferFault c sel a n = none ↔
      n ≠ 0 ∧ ∃ b, sel = some b ∧ (isFrameBank b = true ∨ b = c.configBank) ∧ a.toNat + n ≤ 256 ∧
        ∀ k < n, (target c b (a.toNat + k)).isSome = true := by
  unfold transferFault
  by_cases hn : n = 0
  · simp [hn]
  · rw [if_neg hn, if_neg h]
    cases sel with
    | none => simp
    | some b =>
      by_cases h1 : isFrameBank b = true ∨ b = c.configBank
      · by_cases h2 : a.toNat + n ≤ 256
        · have h2' : ¬ a.toNat + n - 1 > 0xFF := by omega
          have h1' : (!(isFrameBank b || b == c.configBank)) = false := by
            rcases h1 with h | h <;> simp [h]
          simp only [h1', h2', if_false, Bool.false_eq_true]
          by_cases h3 : span (fun k => (target c b k).isSome) a.toNat n = true
          · rw [if_pos h3]
            simpa [hn, h1, h2] using span_iff.1 h3
          · rw [if_neg h3]
            simp only [reduceCtorEq, false_iff]
            rintro ⟨-, b', hb, -, -, h⟩
            cases hb
            exact h3 (span_iff.2 h)
        · have h2' : a.toNat + n - 1 > 0xFF := by omega
          have h1' : (!(isFrameBank b || b == c.configBank)) = false := by
            rcases h1 with h | h <;> simp [h]
          simp [h1', h2', h2]
      · have h1' : (!(isFrameBank b || b == c.configBank)) = true := by
          push Not at h1; simp [h1.1, h1.2]
        simp only [h1', if_true]
        simp only [reduceCtorEq, false_iff]
        rintro ⟨-, b', hb, h, -⟩
        cases hb; exact h1 h

theorem transferFault_select {sel : Option Byte} : transferFault c sel c.bankRegister 1 = none := by
  simp [transferFault]

/-- What `DevApply` answers: the fault of R66, or the state with the payload stored. -/
theorem applyTransfer_cases {p : List Byte} :
    (∃ f, transferFault s.params s.dev.banksel a p.length = some f ∧ applyTransfer a p s = .fault f) ∨
    (transferFault s.params s.dev.banksel a p.length = none ∧
      applyTransfer a p s = .next (storeTransfer a (p.map some) s)) := by
  unfold applyTransfer
  cases h : transferFault s.params s.dev.banksel a p.length <;> simp

theorem applyTransfer_next {p : List Byte} {w : State} :
    applyTransfer a p s = .next w ↔
      transferFault s.params s.dev.banksel a p.length = none ∧ w = storeTransfer a (p.map some) s := by
  rcases applyTransfer_cases (s := s) (a := a) (p := p) with ⟨f, hf, h⟩ | ⟨hf, h⟩
  · simp [h, hf]
  · simp [h, hf, eq_comm]

end Sys2Proof.Machine
end

