-- ==== Sys2Proof/Laws/Sequencer.lean ====
section
/-! SUPPORT. What a command can do, said once: its acceptance, one micro-step, and one step of the machine. The
invariants' proofs cite these inversions instead of unfolding the sequencer. -/

namespace Sys2Proof.Machine

open Sys2Proof.Config

variable {s w : State} {i : Instr} {l : Label} {t : Table} {nxt : Option Label} {act : Action}

/-! ### The tables -/

theorem successor_mem {last : Option Label} {ls : List Label} (h : successor last ls l = some nxt) : l ∈ ls := by
  induction ls with
  | nil => simp [successor] at h
  | cons x ls ih =>
    cases ls with
    | nil => unfold successor at h; split_ifs at h with hx; simp [hx]
    | cons y rest =>
      unfold successor at h
      split_ifs at h with hx
      · simp [hx]
      · exact List.mem_cons_of_mem _ (ih h)

theorem successor_of_mem {last : Option Label} {ls : List Label} (h : l ∈ ls) : ∃ n, successor last ls l = some n := by
  induction ls with
  | nil => simp at h
  | cons x ls ih =>
    cases ls with
    | nil => unfold successor; simp_all
    | cons y rest =>
      unfold successor
      split_ifs with hx
      · exact ⟨_, rfl⟩
      · exact ih ((List.mem_cons.1 h).resolve_left fun e => hx e.symm)

theorem Table.after_mem (h : t.after l = some nxt) : l ∈ t.labels := successor_mem h

theorem Table.after_of_mem (h : l ∈ t.labels) : ∃ n, t.after l = some n := successor_of_mem h

/-- The next label of a sequence is one of its labels. -/
theorem successor_next_mem {last : Option Label} {ls : List Label} {m : Label}
    (h : successor last ls l = some (some m)) : m ∈ ls ∨ last = some m := by
  induction ls with
  | nil => simp [successor] at h
  | cons x ls ih =>
    cases ls with
    | nil => unfold successor at h; split_ifs at h with hx; simp_all
    | cons y rest =>
      unfold successor at h
      split_ifs at h with hx
      · simp only [Option.some.injEq] at h; simp [h]
      · rcases ih h with h | h
        · exact .inl (List.mem_cons_of_mem _ h)
        · exact .inr h

/-! ### A call of the transport -/

theorem callTransport_ok {ev : Answer → BusEvent} {f g : State → Out} (h : s.env.nextAnswer = .ok) :
    callTransport ev f g s = f (s.takeAnswer (ev .ok)) := by simp [callTransport, h]

theorem callTransport_err {ev : Answer → BusEvent} {f g : State → Out} (h : s.env.nextAnswer = .err) :
    callTransport ev f g s = g (s.takeAnswer (ev .err)) := by simp [callTransport, h]

theorem callTransport_hang {ev : Answer → BusEvent} {f g : State → Out} (h : s.env.nextAnswer = .hang) :
    callTransport ev f g s = .next (s.takeAnswer (ev .hang)).hang := by simp [callTransport, h]

theorem nextAnswer_cons {r : Answer} {rs : List Answer} {e : Env} (h : e.answers = r :: rs) : e.nextAnswer = r := by
  simp [Env.nextAnswer, h]

/-! ### One micro-step -/

/-- The event that a transport call of an action records. -/
def callEvent (s : State) : Action → Answer → Option BusEvent
  | .xfer a p, r => some (.transfer (a :: p) r)
  | .openNode, r => some (.openCall s.params.devicePath r)
  | .bindAddress, r => some (.bindCall s.params.deviceAddress r)
  | _, _ => none

/-- The state that an action without a transport call leaves, before the sequence goes on. -/
def localEffect (s : State) : Action → Option State
  | .wait ms => some (s.waited ms)
  | .markReady => some s.setReady
  | .mapBuffer => some s.mapBuffer
  | .initScroll => some s.initScroll
  | .toggleActive => some s.toggleActive
  | .stepOffset => some s.stepOffset
  | .renderFrame => some s.renderFrame
  | .testEnd => some s
  | .xfer _ _ | .openNode | .bindAddress => none

/-- The ways a micro-step can answer a next state. -/
inductive Performed (l : Label) (act : Action) (nxt : Option Label) (s : State) : State → Prop where
  | hang {ev} (h : callEvent s act .hang = some ev) (r : s.env.nextAnswer = .hang) :
      Performed l act nxt s (s.takeAnswer ev).hang
  | stored {a p} (h : act = .xfer a p) (r : s.env.nextAnswer = .ok)
      (hf : transferFault s.params s.dev.banksel a p.length = none) :
      Performed l act nxt s
        (((storeTransfer a (p.map some) (s.takeAnswer (.transfer (a :: p) .ok))).settleAfter l).goto nxt)
  | failed {a p} (h : act = .xfer a p) (r : s.env.nextAnswer = .err)
      (hf : transferFault s.params s.dev.banksel a p.length = none) :
      Performed l act nxt s
        ((havocTransfer a p (s.takeAnswer (.transfer (a :: p) .err))).raiseTransfer l)
  | opened (h : act = .openNode) (r : s.env.nextAnswer = .ok) :
      Performed l act nxt s ((s.takeAnswer (.openCall s.params.devicePath .ok)).setOpened.goto nxt)
  | openFailed (h : act = .openNode) (r : s.env.nextAnswer = .err) :
      Performed l act nxt s ((s.takeAnswer (.openCall s.params.devicePath .err)).raise causeDeviceOpen 0x00 l)
  | bound (h : act = .bindAddress) (r : s.env.nextAnswer = .ok) :
      Performed l act nxt s
        (((s.takeAnswer (.bindCall s.params.deviceAddress .ok)).setBound.enterSetup nxt).goto nxt)
  | bindFailed (h : act = .bindAddress) (r : s.env.nextAnswer = .err) :
      Performed l act nxt s ((s.takeAnswer (.bindCall s.params.deviceAddress .err)).raise causeAddressBind 0x00 l)
  | localStep {u} (h : localEffect s act = some u) (hk : act = .testEnd → scrolledOut s.ctrl = false) :
      Performed l act nxt s (u.goto nxt)
  | finish (h : act = .testEnd) (hk : scrolledOut s.ctrl = true) :
      Performed l act nxt s s.finish

theorem perform_next (h : perform l act nxt s = .next w) : Performed l act nxt s w := by
  cases act with
  | xfer a p =>
    simp only [perform, xferStep] at h
    cases r : s.env.nextAnswer with
    | ok =>
      rw [callTransport_ok r, completeTransfer] at h
      rcases applyTransfer_cases (s := s.takeAnswer (.transfer (a :: p) .ok)) (a := a) (p := p) with ⟨f, -, e⟩ | ⟨hf, e⟩
      · simp [e] at h
      · simp only [e, Host.Outcome.next.injEq] at h
        exact h ▸ .stored rfl r hf
    | err =>
      rw [callTransport_err r, failTransfer] at h
      cases hf : transferFault s.params s.dev.banksel a p.length with
      | some f => simp [hf] at h
      | none =>
        simp only [State.takeAnswer_params, State.takeAnswer_dev, hf, Host.Outcome.next.injEq] at h
        exact h ▸ .failed rfl r hf
    | hang =>
      rw [callTransport_hang r, Host.Outcome.next.injEq] at h
      exact h ▸ .hang rfl r
  | openNode =>
    simp only [perform, openStep] at h
    cases r : s.env.nextAnswer with
    | ok => rw [callTransport_ok r, Host.Outcome.next.injEq] at h; exact h ▸ .opened rfl r
    | err => rw [callTransport_err r, Host.Outcome.next.injEq] at h; exact h ▸ .openFailed rfl r
    | hang => rw [callTransport_hang r, Host.Outcome.next.injEq] at h; exact h ▸ .hang rfl r
  | bindAddress =>
    simp only [perform, bindStep] at h
    cases r : s.env.nextAnswer with
    | ok => rw [callTransport_ok r, Host.Outcome.next.injEq] at h; exact h ▸ .bound rfl r
    | err => rw [callTransport_err r, Host.Outcome.next.injEq] at h; exact h ▸ .bindFailed rfl r
    | hang => rw [callTransport_hang r, Host.Outcome.next.injEq] at h; exact h ▸ .hang rfl r
  | testEnd =>
    simp only [perform] at h
    split_ifs at h with hk <;> rw [Host.Outcome.next.injEq] at h
    · exact h ▸ .finish rfl hk
    · exact h ▸ .localStep rfl fun _ => by simpa using hk
  | _ =>
    simp only [perform, Host.Outcome.next.injEq] at h
    exact h ▸ .localStep rfl fun e => by cases e

/-! ### A command -/

/-- R222's checks that apply to one command, beside `Terminal` and `Busy`. -/
def ownChecks : Instr → List Reason
  | .nop | .map | .scrollInit => []
  | .openDev => [.alreadyOpen]
  | .bindDev => [.notOpen, .alreadyBound]
  | .writeReg _ _ | .selectBank _ | .writeConfig _ _ => [.notBound]
  | .writeBlock _ d => blockOperandChecks d ++ [.notBound]
  | .resetSeq | .configureSeq | .enableSeq | .setup => [.notBound]
  | .loadFrame f => frameOperandChecks f
  | .present | .tick | .scroll => [.notBound, .notReady]
  | .run => [.alreadyOpen, .alreadyBound]
  | .reserved03 _ | .reserved14 _ | .reserved24 _ | .reserved33 _ | .reserved44 _ => [.badOpcode]
  | .xbank _ _ | .xmode _ _ | .xframe _ _ | .xaudio _ _ | .xshut _ _ => []
  | .xen _ _ | .xcol _ _ | .xmix _ _ | .xcfgblk _ _ | .xreserved _ _ => []

/-- The state an accepted command leaves (R94). -/
def State.acceptedBy (s : State) : Instr → State
  | .loadFrame f => s.admitted.loadFrame f
  | .resetSeq => (s.accept .resetSeq resetTable.first).clearReady
  | .setup => (s.accept .setup setupTable.first).clearReady
  | i =>
    match commandTable i with
    | some t => s.accept i t.first
    | none => s.admitted

/-- A command that is not executing is refused by its first failing check, or accepted. -/
theorem exec_issued (hi : isHostCommand i = true) (he : s.executing i = false) :
    exec i s =
      match firstRefusal (ownChecks i) s.ctrl with
      | some r => .next (s.refuse r)
      | none => .next (s.acceptedBy i) := by
  have hbad : ∃ r, firstRefusal [.badOpcode] s.ctrl = some r := by
    unfold firstRefusal
    cases h : (Reason.terminal :: Reason.busy :: [.badOpcode]).find? (·.failsIn s.ctrl) with
    | some r => exact ⟨r, rfl⟩
    | none => simp [Reason.failsIn] at h
  cases i <;> first | (simp [isHostCommand] at hi; done) | skip
  case reserved03 | reserved14 | reserved24 | reserved33 | reserved44 =>
    obtain ⟨r, hr⟩ := hbad
    simp [exec, execReserved03, execReserved14, execReserved24, execReserved33, execReserved44, refuseOpcode,
      ownChecks, hr]
  all_goals
    simp only [exec, execNop, execOpen, execBind, execWriteReg, execWriteBlock, execSelectBank, execWriteConfig,
      execResetSeq, execConfigureSeq, execEnableSeq, execSetup, execLoadFrame, execMap, execPresent, execScrollInit,
      execTick, execScroll, execRun, runCommand, immediateCommand, he, ownChecks, State.acceptedBy, commandTable,
      id_eq, Bool.false_eq_true, if_false]
    try rfl

/-- An executing command runs its next micro-step. -/
theorem exec_executing (ht : commandTable i = some t) (he : s.executing i = true) : exec i s = microStep t s := by
  cases i <;> simp only [commandTable, Option.some.injEq, reduceCtorEq] at ht <;> subst ht <;>
    simp [exec, execOpen, execBind, execWriteReg, execWriteBlock, execSelectBank, execWriteConfig,
      execResetSeq, execConfigureSeq, execEnableSeq, execSetup, execMap, execPresent, execScrollInit,
      execTick, execScroll, execRun, runCommand, he]

theorem executing_iff : s.executing i = true ↔ s.ctrl.phase = .busy ∧ s.ctrl.cmd = some i := by
  simp [State.executing]

/-- A command at one of its labels performs the label's action. -/
theorem exec_runsAt (ht : commandTable i = some t) (h : s.runsAt i l) :
    exec i s =
      match t.after l, labelAction s l with
      | some nxt, some act => perform l act nxt s
      | _, _ => .fault .noMicroStep := by
  obtain ⟨h1, h2, h3, h4⟩ := h
  rw [exec_executing ht (executing_iff.2 ⟨h1, h2⟩), microStep]
  simp only [h4, h3, Bool.false_eq_true, if_false]
  try rfl

/-- The ways an executing command can answer a next state: no step while a call hangs, or one action performed. -/
theorem exec_executing_next (ht : commandTable i = some t) (he : s.executing i = true) (h : exec i s = .next w) :
    (s.env.hung = true ∧ w = s) ∨
    (s.env.hung = false ∧ ∃ l nxt act, s.ctrl.seqPc = some l ∧ t.after l = some nxt ∧ labelAction s l = some act ∧
      Performed l act nxt s w) := by
  rw [exec_executing ht he, microStep] at h
  split_ifs at h with hh
  · rw [Host.Outcome.next.injEq] at h; exact .inl ⟨hh, h.symm⟩
  · refine .inr ⟨by simpa using hh, ?_⟩
    cases hl : s.ctrl.seqPc with
    | none => simp [hl] at h
    | some l =>
      cases hn : t.after l with
      | none => simp [hl, hn] at h
      | some nxt =>
        cases ha : labelAction s l with
        | none => simp [hl, hn, ha] at h
        | some act =>
          simp only [hl, hn, ha] at h
          exact ⟨l, nxt, act, rfl, hn, ha, perform_next h⟩

/-- The ways a host command can answer a next state. -/
inductive Executed (i : Instr) (s : State) : State → Prop where
  | refused (r : Reason) (he : s.executing i = false) (h : firstRefusal (ownChecks i) s.ctrl = some r) :
      Executed i s (s.refuse r)
  | accepted (he : s.executing i = false) (h : firstRefusal (ownChecks i) s.ctrl = none) :
      Executed i s (s.acceptedBy i)
  | waiting (he : s.executing i = true) (h : s.env.hung = true) : Executed i s s
  | step {t : Table} {l nxt act} {w : State} (he : s.executing i = true) (hh : s.env.hung = false) (ht : commandTable i = some t)
      (hl : s.ctrl.seqPc = some l) (hn : t.after l = some nxt) (ha : labelAction s l = some act)
      (hp : Performed l act nxt s w) : Executed i s w

/-- The commands without micro-steps never execute past acceptance: while `BUSY` they are refused. -/
theorem exec_immediate (hi : isHostCommand i = true) (ht : commandTable i = none) :
    exec i s =
      match firstRefusal (ownChecks i) s.ctrl with
      | some r => .next (s.refuse r)
      | none => .next (s.acceptedBy i) := by
  by_cases he : s.executing i = true
  · have hb : s.ctrl.phase = .busy := (executing_iff.1 he).1
    have hr : ∀ cs, firstRefusal cs s.ctrl = some .busy := fun cs => by
      simp [firstRefusal, Reason.failsIn, hb]
    cases i <;> simp [isHostCommand, commandTable] at hi ht <;>
      simp [exec, execNop, execLoadFrame, immediateCommand, execReserved03, execReserved14, execReserved24,
        execReserved33, execReserved44, refuseOpcode, hr]
  · exact exec_issued hi (by simpa using he)

theorem exec_next (hi : isHostCommand i = true) (h : exec i s = .next w) :
    Executed i s w ∨ (s.ctrl.phase = .busy ∧ w = s.refuse .busy) := by
  cases he : s.executing i with
  | false =>
    rw [exec_issued hi he] at h
    cases hr : firstRefusal (ownChecks i) s.ctrl with
    | some r => simp only [hr, Host.Outcome.next.injEq] at h; exact .inl (h ▸ .refused r he hr)
    | none => simp only [hr, Host.Outcome.next.injEq] at h; exact .inl (h ▸ .accepted he hr)
  | true =>
    cases ht : commandTable i with
    | none =>
      rw [exec_immediate hi ht] at h
      have hb : s.ctrl.phase = .busy := (executing_iff.1 he).1
      have hr : firstRefusal (ownChecks i) s.ctrl = some .busy := by
        simp [firstRefusal, Reason.failsIn, hb]
      simp only [hr, Host.Outcome.next.injEq] at h
      exact .inr ⟨hb, h.symm⟩
    | some t =>
      rcases exec_executing_next ht he h with ⟨hh, rfl⟩ | ⟨hh, l, nxt, act, hl, hn, ha, hp⟩
      · exact .inl (.waiting he hh)
      · exact .inl (.step he hh ht hl hn ha hp)

/-- A wire class answers a next state only by storing its transfer (R66, R92). -/
theorem exec_wire_next (hi : isHostCommand i = false) (h : exec i s = .next w) :
    ∃ a p, encode i = a :: p ∧ transferFault s.params s.dev.banksel a p.length = none ∧
      w = storeTransfer a (p.map some) s := by
  cases i <;> first | (simp [isHostCommand] at hi; done) | skip
  all_goals
    simp only [exec, execXbank, execXmode, execXframe, execXaudio, execXshut, execXen, execXcol, execXmix,
      execXcfgblk, execXreserved, applyTransfer_next] at h
  case xreserved a p => split at h <;> simp at h
  all_goals exact ⟨_, _, rfl, h.1, h.2⟩

end Sys2Proof.Machine
end

