-- ==== Sys2Proof/Laws/Acceptance.lean ====
section
/-! SUPPORT. The model's tables of checks and labels against those that claims are stated in: R222's table and the
sequences' "next" columns. -/

namespace Sys2Proof.Machine

open Sys2Proof.Config

variable {s : State} {c : Ctrl} {i : Instr} {l : Label} {t : Table} {act : Action}

/-- From each label of a command the sequence goes to the label the spec's table names. -/
theorem table_after (ht : commandTable i = some t) (hl : l ∈ t.labels) : t.after l = some (nextLabel i l) := by
  cases i <;> simp only [commandTable, Option.some.injEq, reduceCtorEq] at ht <;> subst ht <;>
    cases l <;> first | rfl | (exfalso; revert hl; decide)

theorem table_first (ht : commandTable i = some t) : t.first = firstStep i := by
  cases i <;> simp only [commandTable, Option.some.injEq, reduceCtorEq] at ht <;> subst ht <;> rfl

/-- A command at one of its labels performs the label's action and goes on to the label the spec's table names. -/
theorem exec_perform (ht : commandTable i = some t) (hl : l ∈ t.labels) (h : s.runsAt i l)
    (ha : labelAction s l = some act) : exec i s = perform l act (nextLabel i l) s := by
  rw [exec_runsAt ht h, table_after ht hl, ha]

/-! ### R222's table -/

theorem ownChecks_writeBlock {a : Byte} {d : List Byte} : ownChecks (.writeBlock a d) =
    (if illegalOperands (.writeBlock a d) then [.badOperand] else []) ++ [.notBound] := by
  by_cases x : 1 ≤ d.length ∧ d.length ≤ 255
  · have : illegalOperands (.writeBlock a d) = false := by
      simp only [illegalOperands, Bool.or_eq_false_iff, beq_eq_false_iff_ne, decide_eq_false_iff_not]; omega
    simp [this, ownChecks, blockOperandChecks, x]
  · have : illegalOperands (.writeBlock a d) = true := by
      simp only [illegalOperands, Bool.or_eq_true, beq_iff_eq, decide_eq_true_eq]; omega
    simp [this, ownChecks, blockOperandChecks, x]

theorem ownChecks_loadFrame {f : List Byte} :
    ownChecks (.loadFrame f) = if illegalOperands (.loadFrame f) then [.badOperand] else [] := by
  by_cases x : f.length = cells <;> simp [ownChecks, frameOperandChecks, illegalOperands, x]

/-- The first failing row of R222's table. -/
theorem firstFailing_eq : firstFailing i c =
    if c.phase == .done || c.phase == .failed then some .terminal
    else if c.phase == .busy then some .busy
    else if isReservedOpcode i then some .badOpcode
    else if illegalOperands i then some .badOperand
    else if (i == .openDev || i == .run) && c.opened == 1 then some .alreadyOpen
    else if i == .bindDev && c.opened == 0 then some .notOpen
    else if (i == .bindDev || i == .run) && c.bound == 1 then some .alreadyBound
    else if needsBound i && c.bound == 0 then some .notBound
    else if needsReady i && c.ready == 0 then some .notReady
    else none := by
  simp only [firstFailing, refusalTable, List.find?_cons, List.find?_nil]
  repeat' (first | rfl | split)
  all_goals simp_all

theorem find?_cons_if {α : Type} {p : α → Bool} {r : α} {rs : List α} :
    (r :: rs).find? p = if p r = true then some r else rs.find? p := by
  rw [List.find?_cons]; split <;> simp_all

/-- The checks of a command's meaning fail in R222's order. -/
theorem firstRefusal_ownChecks (hi : isHostCommand i = true) : firstRefusal (ownChecks i) c = firstFailing i c := by
  rw [firstFailing_eq]
  unfold firstRefusal
  cases i <;> first | (simp [isHostCommand] at hi; done) | skip
  case writeBlock a d =>
    rw [ownChecks_writeBlock]
    cases illegalOperands (.writeBlock a d) <;>
      simp [find?_cons_if, Reason.failsIn, isReservedOpcode, needsBound, needsReady]
  case loadFrame f =>
    rw [ownChecks_loadFrame]
    cases illegalOperands (.loadFrame f) <;>
      simp [find?_cons_if, Reason.failsIn, isReservedOpcode, needsBound, needsReady]
  all_goals
    simp [ownChecks, find?_cons_if, Reason.failsIn, isReservedOpcode, illegalOperands, needsBound, needsReady]

/-- Only an idle block admits a command. -/
theorem phase_of_firstFailing (h : firstFailing i c = none) : c.phase = .idle := by
  rw [firstFailing_eq] at h
  cases hp : c.phase <;> simp [hp] at h ⊢

end Sys2Proof.Machine
end

