-- ==== Sys2Proof/Laws/Buffers.lean ====
section
/-! SUPPORT. The mapper's index, what `map`, LOAD_FRAME and the rasterizer leave in a buffer, and that every operation
on a buffer or a device array keeps the canonical form. -/

namespace Sys2Proof.Machine

open Sys2Proof.Config

variable {s w : State} {x y x' y' : Nat} {f : ByteMemory}

/-! ### The mapper -/

theorem mem_cellList : (x, y) ∈ cellList ↔ x < 17 ∧ y < 7 := by
  simp [cellList, cols, rows]

theorem idx_lt (hx : x < 17) (hy : y < 7) : idx x y < 144 := by
  unfold idx idxInt; split_ifs <;> omega

theorem idx_injective (hx : x < 17) (hy : y < 7) (hx' : x' < 17) (hy' : y' < 7) (h : idx x y = idx x' y') :
    x = x' ∧ y = y' := by
  unfold idx idxInt at h; split_ifs at h <;> omega

/-- A mapped byte of the buffer is its cell (R161). -/
theorem bufferByte_mapFrame (hx : x < 17) (hy : y < 7) : bufferByte (mapFrame f) (idx x y) = frameCell f x y := by
  refine Memory.read_foldl_write_same (fun xy : Nat × Nat => idx xy.1 xy.2) (fun xy => frameCell f xy.1 xy.2)
    cellList ?_ (x := (x, y)) (mem_cellList.2 ⟨hx, hy⟩)
  rintro ⟨a, b⟩ ha ⟨a', b'⟩ ha' h
  rw [mem_cellList] at ha ha'
  obtain ⟨h1, h2⟩ := idx_injective ha.1 ha.2 ha'.1 ha'.2 h
  rw [h1, h2]

/-- A byte of the buffer that no cell maps to is zero (R161, R164). -/
theorem bufferByte_mapFrame_unmapped {k : Nat} (h : ∀ x < 17, ∀ y < 7, idx x y ≠ k) : bufferByte (mapFrame f) k = 0 := by
  unfold bufferByte mapFrame
  rw [Memory.read_foldl_write_other, Memory.read_nil]
  rintro ⟨a, b⟩ hab
  rw [mem_cellList] at hab
  exact h a hab.1 b hab.2

/-! ### LOAD_FRAME and the rasterizer -/

theorem frameKey_injective (hx : x < 17) (hx' : x' < 17) (h : 17 * y + x = 17 * y' + x') : x = x' ∧ y = y' := by
  omega

/-- LOAD_FRAME's cell (x, y) is its operand's byte `17*y + x` (R168). -/
theorem frameCell_frameOfBytes {bs : List Byte} (hx : x < 17) (hy : y < 7) :
    frameCell (frameOfBytes bs) x y = bs.getD (17 * y + x) 0 := by
  refine Memory.read_foldl_write_same (fun xy : Nat × Nat => 17 * xy.2 + xy.1) (fun xy => bs.getD (17 * xy.2 + xy.1) 0)
    cellList ?_ (x := (x, y)) (mem_cellList.2 ⟨hx, hy⟩)
  rintro ⟨a, b⟩ ha ⟨a', b'⟩ ha' h
  rw [mem_cellList] at ha ha'
  obtain ⟨h1, h2⟩ := frameKey_injective ha.1 ha'.1 h
  simp only at h1 h2 ⊢
  rw [h1, h2]

theorem frameCell_setFrameCell {v : Byte} (hx : x < 17) (hx' : x' < 17) :
    frameCell (setFrameCell f x y v) x' y' = if x' = x ∧ y' = y then v else frameCell f x' y' := by
  unfold frameCell setFrameCell
  rw [Memory.read_write]
  by_cases h : 17 * y' + x' = 17 * y + x
  · obtain ⟨h1, h2⟩ := frameKey_injective hx' hx h
    simp [h1, h2]
  · have h' : ¬(x' = x ∧ y' = y) := by rintro ⟨rfl, rfl⟩; exact h rfl
    simp [h, h']

/-- What every painted cell keeps, the painted glyph keeps. -/
theorem paint_keeps (P : ByteMemory → Prop)
    (hset : ∀ f x y v, x < 17 → y < 7 → P f → P (setFrameCell f x y v)) (c : Params) (f₀ : ByteMemory) (o : Int)
    (ch : Char) (hf : P f) : P (cellList.foldl (paintCell c f₀ o ch) f) := by
  have key : ∀ l : List (Nat × Nat), (∀ xy ∈ l, xy ∈ cellList) → ∀ f, P f → P (l.foldl (paintCell c f₀ o ch) f) := by
    intro l
    induction l with
    | nil => exact fun _ f hf => hf
    | cons xy l ih =>
      intro hl f hf
      refine ih (fun z hz => hl z (by simp [hz])) _ ?_
      have hxy := mem_cellList.1 (hl xy (by simp))
      unfold paintCell
      split_ifs
      · split
        · exact hset _ _ _ _ hxy.1 hxy.2 hf
        · exact hf
      · exact hf
  exact key _ (fun _ h => h) f hf

/-- What every painted cell keeps, `render` keeps. -/
theorem renderText_keeps (P : ByteMemory → Prop)
    (hset : ∀ f x y v, x < 17 → y < 7 → P f → P (setFrameCell f x y v)) (c : Params) (text : List Char) (first : Bool)
    (o : Int) (hf : P f) : P (renderText c text first f o).1 := by
  induction text generalizing first f o with
  | nil => exact hf
  | cons ch text ih => unfold renderText; exact ih _ _ (paint_keeps P hset _ _ _ _ hf)

/-! ### The canonical form -/

/-- A frame in canonical form that lists no key outside the 119 cells (R60). -/
structure FrameOk (f : ByteMemory) : Prop where
  wf : Memory.wf (0 : Byte) f = true
  keys : ∀ cell ∈ f, cell.1 < cells

theorem FrameOk.nil : FrameOk [] := ⟨Memory.wf_nil, by simp⟩

theorem FrameOk.set {v : Byte} (hx : x < 17) (hy : y < 7) (h : FrameOk f) : FrameOk (setFrameCell f x y v) := by
  refine ⟨Memory.wf_write h.wf, fun cell hc => ?_⟩
  rcases Memory.mem_write hc with rfl | hc
  · show 17 * y + x < 119; omega
  · exact h.keys _ hc

theorem FrameOk.render (c : Params) (o : Int) : FrameOk (render c o).1 :=
  renderText_keeps FrameOk (fun _ _ _ _ hx hy h => h.set hx hy) _ _ _ _ .nil

theorem mem_foldl_write {α β : Type} [DecidableEq α] {d : α} (key : β → Nat) (val : β → α) (l : List β) (m : Memory α)
    {cell : Nat × α} (h : cell ∈ l.foldl (fun b x => Memory.write d b (key x) (val x)) m) :
    cell ∈ m ∨ ∃ x ∈ l, cell.1 = key x := by
  induction l generalizing m with
  | nil => exact .inl h
  | cons x l ih =>
    rcases ih _ h with h | ⟨y, hy, h⟩
    · rcases Memory.mem_write h with rfl | h
      · exact .inr ⟨x, by simp, rfl⟩
      · exact .inl h
    · exact .inr ⟨y, by simp [hy], h⟩

theorem FrameOk.frameOfBytes (bs : List Byte) : FrameOk (frameOfBytes bs) := by
  refine ⟨Memory.wf_foldl_write _ _ _ Memory.wf_nil, fun cell hc => ?_⟩
  rcases mem_foldl_write (d := (0 : Byte)) (fun xy : Nat × Nat => 17 * xy.2 + xy.1) _ _ _ hc with h | ⟨⟨x, y⟩, hx, h⟩
  · simp at h
  · have := mem_cellList.1 hx
    rw [h]; show 17 * y + x < 119; omega

theorem mapFrame_wf : Memory.wf (0 : Byte) (mapFrame f) = true := Memory.wf_foldl_write _ _ _ Memory.wf_nil

theorem mapFrame_keys : ∀ cell ∈ mapFrame f, cell.1 < pbufLen := by
  intro cell hc
  rcases mem_foldl_write _ _ _ _ hc with h | ⟨⟨x, y⟩, hx, h⟩
  · simp at h
  · rw [h]; exact idx_lt (mem_cellList.1 hx).1 (mem_cellList.1 hx).2

/-- `CanonicalMemories` reads the buffers, the device's arrays and the parameters alone. -/
theorem CanonicalMemories.of_eq (h : CanonicalMemories s) (h1 : w.ctrl.lframe = s.ctrl.lframe)
    (h2 : w.ctrl.pbuf = s.ctrl.pbuf) (h3 : w.dev.en = s.dev.en) (h4 : w.dev.col = s.dev.col)
    (h5 : w.params = s.params) : CanonicalMemories w := by
  obtain ⟨a, b, c, d, e, f, g, k⟩ := h
  constructor <;> simp only [h1, h2, h3, h4, h5] <;> assumption

theorem CanonicalMemories.writeTarget {t : Target} {v : Option Byte} (h : CanonicalMemories s)
    (hs : t.exists s.params = true) (hm : t.small = true) : CanonicalMemories (writeTarget t v s) := by
  obtain ⟨a, b, c, d, e, f, g, k⟩ := h
  cases t <;> simp only [Machine.writeTarget, Target.exists, Target.small, Bool.and_eq_true, decide_eq_true_eq] at hs hm ⊢
  all_goals refine ⟨a, b, ?_, ?_, e, f, ?_, ?_⟩
  all_goals first | exact Memory.wf_write ‹_› | assumption | skip
  all_goals
    intro cell hc
    rcases Memory.mem_write hc with rfl | hc
    · have hn : numFrameBanks = 2 := rfl
      exact ⟨by simp only; omega, by simp only; omega⟩
    · first | exact g cell hc | exact k cell hc

theorem CanonicalMemories.writePayload {b : Byte} {n : Nat} {vs : List (Option Byte)} (hn : n + vs.length ≤ 256)
    (h : CanonicalMemories s) : CanonicalMemories (writePayload b n vs s) := by
  induction vs generalizing n s with
  | nil => exact h
  | cons v vs ih =>
    simp only [List.length_cons] at hn
    rw [Machine.writePayload]
    apply ih (by omega)
    split
    · rename_i t ht
      exact h.writeTarget (target_exists ht) (target_small (by omega) ht)
    · exact h

/-- A transfer that R66 accepts keeps the canonical form. -/
theorem CanonicalMemories.storeTransfer {a : Byte} {vs : List (Option Byte)} (h : CanonicalMemories s)
    (hf : transferFault s.params s.dev.banksel a vs.length = none) : CanonicalMemories (storeTransfer a vs s) := by
  by_cases ha : a = s.params.bankRegister
  · unfold Machine.storeTransfer; rw [if_pos ha]
    exact h.of_eq rfl rfl rfl rfl rfl
  · obtain ⟨-, b, hb, -, hn, -⟩ := (transferFault_none_relative ha).1 hf
    rw [storeTransfer_relative ha hb]
    exact h.writePayload hn

end Sys2Proof.Machine
end

