-- ==== Sys2Proof/Laws/Decode.lean ====
section
/-! SUPPORT. Small facts of the decoders and the encoder (30_encoding.md R90 to R97). -/

namespace Sys2Proof

open Sys2Proof.Config Sys2Proof.Machine

variable {op : Byte} {rest bytes : List Byte} {i : Instr} {c : Params}

/-! ### Host commands -/

/-- `decode` on a nonempty stream. -/
theorem decode_cons :
    decode (op :: rest) =
      match (formatOf op).read rest with
      | some r => .ok r
      | none => .error .truncated := rfl

/-- Every instruction of a format is a host command. -/
def Format.host : Format → Prop
  | .H0 i => isHostCommand i = true
  | .H1 mk => ∀ b, isHostCommand (mk b) = true
  | .H2 mk => ∀ a v, isHostCommand (mk a v) = true
  | .HB mk => ∀ a d, isHostCommand (mk a d) = true
  | .HF mk => ∀ f, isHostCommand (mk f) = true

theorem Format.host_of_read {f : Format} (hf : f.host) (h : f.read bytes = some (i, rest)) : isHostCommand i = true := by
  unfold Format.read at h
  split at h
  case h_6 =>
    split_ifs at h
    simp only [Option.some.injEq, Prod.mk.injEq] at h
    exact h.1 ▸ hf _ _
  case h_8 =>
    split_ifs at h
    simp only [Option.some.injEq, Prod.mk.injEq] at h
    exact h.1 ▸ hf _
  all_goals simp only [Option.some.injEq, Prod.mk.injEq, reduceCtorEq] at h
  · exact h.1 ▸ hf
  · exact h.1 ▸ hf _
  · exact h.1 ▸ hf _ _

theorem isHostCommand_reservedRow : isHostCommand (reservedRow op) = true := by
  unfold reservedRow; split_ifs <;> rfl

theorem encode_reservedRow : encode (reservedRow op) = [op] := by
  unfold reservedRow; split_ifs <;> rfl

theorem formatOf_host : (formatOf op).host := by
  unfold formatOf
  cases h : opcodeTable.lookup op with
  | none => exact isHostCommand_reservedRow
  | some f =>
    have hall : ∀ x ∈ opcodeTable, x.2.host := by
      simp [opcodeTable, Format.host, isHostCommand]
    obtain ⟨l, r, hx, -⟩ := List.lookup_eq_some_iff.1 h
    exact hall (op, f) (by simp [hx])

/-- The host's decoder gives host commands only. -/
theorem isHostCommand_of_decode (h : decode bytes = .ok (i, rest)) : isHostCommand i = true := by
  cases bytes with
  | nil => simp [decode] at h
  | cons op bytes =>
    rw [decode_cons] at h
    cases hr : (formatOf op).read bytes with
    | none => simp [hr] at h
    | some r =>
      simp only [hr, Except.ok.injEq] at h
      subst h
      exact Format.host_of_read formatOf_host hr

/-- A reserved opcode is no row of R95. -/
theorem wellFormed_reservedRow (h : opcodeTable.lookup op = none) : wellFormed c (reservedRow op) = true := by
  have hne : ∀ x ∈ opcodeTable, op ≠ x.1 := fun x hx e => by
    have := List.lookup_eq_none_iff.1 h x hx
    simp [e] at this
  simp only [opcodeTable, List.mem_cons, List.not_mem_nil, or_false, forall_eq_or_imp, forall_eq] at hne
  unfold reservedRow
  split_ifs <;> simp only [wellFormed, Bool.and_eq_true, decide_eq_true_eq] <;> bv_omega

/-! ### Wire transfers -/

theorem decodeWire_cons {sel : Option Byte} {a v : Byte} {p : List Byte} :
    decodeWire c sel (a :: v :: p) = some (wireClass c sel a (v :: p)) := rfl

/-- Every candidate class of a transfer encodes it. -/
theorem encode_of_mem_wireClasses {a : Byte} {p : List Byte} (h : i ∈ wireClasses a p) : encode i = a :: p := by
  unfold wireClasses at h
  rw [List.mem_append] at h
  rcases h with h | h
  · split at h
    · simp only [oneByteClasses, List.mem_cons, List.not_mem_nil, or_false] at h
      rcases h with rfl | rfl | rfl | rfl | rfl <;> rfl
    · simp at h
  · simp only [blockClasses, List.mem_cons, List.not_mem_nil, or_false] at h
    rcases h with rfl | rfl | rfl | rfl <;> rfl

theorem encode_wireClass {sel : Option Byte} {a : Byte} {p : List Byte} : encode (wireClass c sel a p) = a :: p := by
  unfold wireClass
  cases h : (wireClasses a p).find? (classApplies c sel) with
  | none => rfl
  | some i => exact encode_of_mem_wireClasses (List.mem_of_find?_eq_some h)

/-- A transfer's class is a class of wire transfer. -/
theorem isHostCommand_wireClass {sel : Option Byte} {a : Byte} {p : List Byte} :
    isHostCommand (wireClass c sel a p) = false := by
  unfold wireClass
  cases h : (wireClasses a p).find? (classApplies c sel) with
  | none => rfl
  | some i =>
    have hm := List.mem_of_find?_eq_some h
    unfold wireClasses at hm
    rw [List.mem_append] at hm
    rcases hm with hm | hm
    · split at hm
      · simp only [oneByteClasses, List.mem_cons, List.not_mem_nil, or_false] at hm
        rcases hm with rfl | rfl | rfl | rfl | rfl <;> rfl
      · simp at hm
    · simp only [blockClasses, List.mem_cons, List.not_mem_nil, or_false] at hm
      rcases hm with rfl | rfl | rfl | rfl <;> rfl

end Sys2Proof
end

