-- ==== Sys2Proof/Laws/Parameters.lean ====
section
/-! SUPPORT. What a well-formed parameter set gives (00_scope.md R8 to R10), as facts that proofs cite, and the address map
under it (20_memory.md R62, R63). -/

namespace Sys2Proof.Machine

open Sys2Proof.Config

variable {c : Params} {a b : Byte} {n k : Nat} {sel : Option Byte}

/-- The clauses of `wellFormedParams`, one field each. -/
structure ParamFacts (c : Params) : Prop where
  color_fits : c.colorBase.toNat + 144 ≤ 256
  enable_fits : c.enableBase.toNat + c.enableRegCount ≤ 256
  disjoint : c.enableBase.toNat + c.enableRegCount ≤ c.colorBase.toNat ∨ c.colorBase.toNat + 144 ≤ c.enableBase.toNat
  bank_not_enable : inEnableArea c c.bankRegister.toNat = false
  bank_not_color : inColorArea c c.bankRegister.toNat = false
  bank_ne_mode : c.bankRegister ≠ c.modeRegister
  bank_ne_frame : c.bankRegister ≠ c.frameRegister
  bank_ne_audio : c.bankRegister ≠ c.audioSyncRegister
  bank_ne_shutdown : c.bankRegister ≠ c.shutdownRegister
  mode_ne_frame : c.modeRegister ≠ c.frameRegister
  mode_ne_audio : c.modeRegister ≠ c.audioSyncRegister
  mode_ne_shutdown : c.modeRegister ≠ c.shutdownRegister
  frame_ne_audio : c.frameRegister ≠ c.audioSyncRegister
  frame_ne_shutdown : c.frameRegister ≠ c.shutdownRegister
  audio_ne_shutdown : c.audioSyncRegister ≠ c.shutdownRegister
  config_ne_zero : c.configBank ≠ 0
  config_ne_one : c.configBank ≠ 1
  mask_fits : 17 ≤ c.enableRegCount
  exit_nonzero : c.failExitCode ≠ 0
  text_fits : textWidth c ≤ 2 ^ 31 - 19

theorem paramFacts (h : wellFormedParams c = true) : ParamFacts c := by
  simp only [wellFormedParams, areasFit, areasDisjoint, bankRegisterApart, isConfigRegister, configRegistersDistinct,
    configBankApart, isFrameBank, enableMaskFits, failCodeNonzero, textFits, Bool.and_eq_true, Bool.or_eq_true,
    decide_eq_true_eq, Bool.not_eq_true', Bool.or_eq_false_iff, beq_eq_false_iff_ne, bne_iff_ne, ne_eq,
    BitVec.toNat_inj] at h
  obtain ⟨⟨⟨⟨⟨⟨⟨g, a1, a2⟩, b⟩, ⟨c1, c2⟩, ⟨⟨c3, c4⟩, c5⟩, c6⟩, ⟨⟨⟨⟨d1, d2⟩, d3⟩, d4⟩, d5⟩, d6⟩, e1, e2⟩, f⟩, t⟩ := h
  have hp : pbufLen = 144 := rfl
  have hm : enableMaskLen = 17 := rfl
  exact ⟨by omega, by omega, by omega, c1, c2, c3, c4, c5, c6, d1, d2, d3, d4, d5, d6, e1, e2, by omega, g, t⟩

/-! ### The address map -/

theorem inEnableArea_iff : inEnableArea c n = true ↔ c.enableBase.toNat ≤ n ∧ n < c.enableBase.toNat + c.enableRegCount := by
  simp [inEnableArea]

theorem inColorArea_iff : inColorArea c n = true ↔ c.colorBase.toNat ≤ n ∧ n < c.colorBase.toNat + 144 := by
  simp [inColorArea, show pbufLen = 144 from rfl]

theorem isConfigRegister_iff : isConfigRegister c a.toNat = true ↔
    a = c.modeRegister ∨ a = c.frameRegister ∨ a = c.audioSyncRegister ∨ a = c.shutdownRegister := by
  simp [isConfigRegister, BitVec.toNat_inj, or_assoc]

theorem target_frameBank (hb : b = 0 ∨ b = 1) : target c b n = frameTarget c b n := by
  unfold target; rw [if_pos]; simpa [isFrameBank] using hb

theorem target_configBank (h : ParamFacts c) : target c c.configBank n = configTarget c n := by
  have : isFrameBank c.configBank = false := by
    have h0 := h.config_ne_zero
    have h1 := h.config_ne_one
    simp only [isFrameBank, Bool.or_eq_false_iff, beq_eq_false_iff_ne]
    exact ⟨h0, h1⟩
  unfold target; rw [if_neg (by simp [this]), if_pos rfl]

theorem target_enable (hb : b = 0 ∨ b = 1) (hk : k < c.enableRegCount) :
    target c b (c.enableBase.toNat + k) = some (.enable b.toNat k) := by
  rw [target_frameBank hb, frameTarget, if_pos (inEnableArea_iff.2 ⟨by omega, by omega⟩)]; simp

theorem target_color (h : ParamFacts c) (hb : b = 0 ∨ b = 1) (hk : k < 144) :
    target c b (c.colorBase.toNat + k) = some (.color b.toNat k) := by
  have hd := h.disjoint
  rw [target_frameBank hb, frameTarget, if_neg, if_pos (inColorArea_iff.2 ⟨by omega, by omega⟩)]
  · simp
  · rw [inEnableArea_iff]; omega

theorem target_mode (h : ParamFacts c) : target c c.configBank c.modeRegister.toNat = some .mode := by
  rw [target_configBank h, configTarget, if_pos rfl]

theorem target_frame (h : ParamFacts c) : target c c.configBank c.frameRegister.toNat = some .frame := by
  rw [target_configBank h, configTarget, if_neg, if_pos rfl]
  exact fun e => h.mode_ne_frame (BitVec.toNat_inj.1 e).symm

theorem target_audioSync (h : ParamFacts c) : target c c.configBank c.audioSyncRegister.toNat = some .audioSync := by
  rw [target_configBank h, configTarget, if_neg, if_neg, if_pos rfl]
  · exact fun e => h.frame_ne_audio (BitVec.toNat_inj.1 e).symm
  · exact fun e => h.mode_ne_audio (BitVec.toNat_inj.1 e).symm

theorem target_shutdown (h : ParamFacts c) : target c c.configBank c.shutdownRegister.toNat = some .shutdown := by
  rw [target_configBank h, configTarget, if_neg, if_neg, if_neg, if_pos rfl]
  · exact fun e => h.audio_ne_shutdown (BitVec.toNat_inj.1 e).symm
  · exact fun e => h.frame_ne_shutdown (BitVec.toNat_inj.1 e).symm
  · exact fun e => h.mode_ne_shutdown (BitVec.toNat_inj.1 e).symm

/-- Under a well-formed parameter set R66 accepts a bank-relative transfer when each of its addresses names a register of
the selected bank: the bank is then a modelled one, and the addresses end at or below 0xFF. -/
theorem transferFault_none_iff (h : ParamFacts c) (ha : a ≠ c.bankRegister) :
    transferFault c sel a n = none ↔
      n ≠ 0 ∧ ∃ b, sel = some b ∧ ∀ k < n, (target c b (a.toNat + k)).isSome = true := by
  rw [transferFault_none_relative ha]
  constructor
  · rintro ⟨hn, b, hb, -, -, hk⟩; exact ⟨hn, b, hb, hk⟩
  · rintro ⟨hn, b, hb, hk⟩
    refine ⟨hn, b, hb, ?_, ?_, hk⟩
    · have := hk 0 (by omega)
      unfold target at this
      split_ifs at this with h1 h2
      · exact .inl h1
      · exact .inr h2
      · simp at this
    · have hl := hk (n - 1) (by omega)
      have h1 := h.color_fits
      have h2 := h.enable_fits
      have e1 := c.modeRegister.isLt
      have e2 := c.frameRegister.isLt
      have e3 := c.audioSyncRegister.isLt
      have e4 := c.shutdownRegister.isLt
      have h3 := inEnableArea_iff (c := c) (n := a.toNat + (n - 1))
      have h4 := inColorArea_iff (c := c) (n := a.toNat + (n - 1))
      unfold target frameTarget configTarget at hl
      split_ifs at hl with q1 q2 q3
      · have := h3.1 q2; omega
      · have := h4.1 q3; omega
      all_goals first | omega | simp at hl

end Sys2Proof.Machine
end

