-- ==== Sys2Proof/Laws/PerInstr.lean ====
section
/-! SUPPORT. Facts of every instruction as syntax, one lemma per constructor. -/

namespace Sys2Proof.Laws.EncodeLength

open Sys2Proof.Config

/-- The total length that R93 gives the instruction's format (30_encoding.md; R90 for a wire transfer). -/
def formatLength : Instr → Nat
  | .nop | .openDev | .bindDev | .resetSeq | .configureSeq | .enableSeq | .setup => 1
  | .map | .present | .scrollInit | .tick | .scroll | .run => 1
  | .reserved03 _ | .reserved14 _ | .reserved24 _ | .reserved33 _ | .reserved44 _ => 1
  | .selectBank _ => 2
  | .writeReg _ _ | .writeConfig _ _ => 3
  | .writeBlock _ d => 3 + d.length
  | .loadFrame _ => 120
  | .xbank _ _ | .xmode _ _ | .xframe _ _ | .xaudio _ _ | .xshut _ _ => 2
  | .xen _ p | .xcol _ p | .xmix _ p | .xcfgblk _ p | .xreserved _ p => 1 + p.length

/-- A well-formed instruction's encoding has its format's length. -/
def Statement (i : Instr) : Prop := ∀ c, wellFormed c i = true → (encode i).length = formatLength i

theorem nop : Statement .nop := fun _ _ => rfl
theorem openDev : Statement .openDev := fun _ _ => rfl
theorem bindDev : Statement .bindDev := fun _ _ => rfl
theorem writeReg (a v : Byte) : Statement (.writeReg a v) := fun _ _ => rfl
theorem writeBlock (a : Byte) (d : List Byte) : Statement (.writeBlock a d) := fun _ _ => by
  simp only [encode, formatLength, List.length_cons]; omega
theorem selectBank (b : Byte) : Statement (.selectBank b) := fun _ _ => rfl
theorem writeConfig (a v : Byte) : Statement (.writeConfig a v) := fun _ _ => rfl
theorem resetSeq : Statement .resetSeq := fun _ _ => rfl
theorem configureSeq : Statement .configureSeq := fun _ _ => rfl
theorem enableSeq : Statement .enableSeq := fun _ _ => rfl
theorem setup : Statement .setup := fun _ _ => rfl
theorem loadFrame (f : List Byte) : Statement (.loadFrame f) := fun _ h => by
  simp only [wellFormed, cells, beq_iff_eq] at h
  simp [encode, formatLength, h]
theorem map : Statement .map := fun _ _ => rfl
theorem present : Statement .present := fun _ _ => rfl
theorem scrollInit : Statement .scrollInit := fun _ _ => rfl
theorem tick : Statement .tick := fun _ _ => rfl
theorem scroll : Statement .scroll := fun _ _ => rfl
theorem run : Statement .run := fun _ _ => rfl
theorem reserved03 (op : Byte) : Statement (.reserved03 op) := fun _ _ => rfl
theorem reserved14 (op : Byte) : Statement (.reserved14 op) := fun _ _ => rfl
theorem reserved24 (op : Byte) : Statement (.reserved24 op) := fun _ _ => rfl
theorem reserved33 (op : Byte) : Statement (.reserved33 op) := fun _ _ => rfl
theorem reserved44 (op : Byte) : Statement (.reserved44 op) := fun _ _ => rfl
theorem xbank (a v : Byte) : Statement (.xbank a v) := fun _ _ => rfl
theorem xmode (a v : Byte) : Statement (.xmode a v) := fun _ _ => rfl
theorem xframe (a v : Byte) : Statement (.xframe a v) := fun _ _ => rfl
theorem xaudio (a v : Byte) : Statement (.xaudio a v) := fun _ _ => rfl
theorem xshut (a v : Byte) : Statement (.xshut a v) := fun _ _ => rfl
theorem xen (a : Byte) (p : List Byte) : Statement (.xen a p) := fun _ _ => by
  simp only [encode, formatLength, List.length_cons]; omega
theorem xcol (a : Byte) (p : List Byte) : Statement (.xcol a p) := fun _ _ => by
  simp only [encode, formatLength, List.length_cons]; omega
theorem xmix (a : Byte) (p : List Byte) : Statement (.xmix a p) := fun _ _ => by
  simp only [encode, formatLength, List.length_cons]; omega
theorem xcfgblk (a : Byte) (p : List Byte) : Statement (.xcfgblk a p) := fun _ _ => by
  simp only [encode, formatLength, List.length_cons]; omega
theorem xreserved (a : Byte) (p : List Byte) : Statement (.xreserved a p) := fun _ _ => by
  simp only [encode, formatLength, List.length_cons]; omega

end Sys2Proof.Laws.EncodeLength
end

