-- ==== Sys2Proof/Laws/Step.lean ====
section
/-! SUPPORT. What one step of the machine can do, said once. -/

namespace Sys2Proof.Machine

open Sys2Proof.Config

variable {s u w : State} {i : Instr} {t : Table}

/-- The two states differ in the host's stream and ENV's schedule alone. -/
structure SameButInputs (s u : State) : Prop where
  ctrl : u.ctrl = s.ctrl
  dev : u.dev = s.dev
  settle : u.settlePending = s.settlePending
  params : u.params = s.params
  answers : u.env.answers = s.env.answers
  draws : u.env.draws = s.env.draws
  hung : u.env.hung = s.env.hung
  reply : u.env.reply = s.env.reply
  trace : u.env.trace = s.env.trace

theorem SameButInputs.refl : SameButInputs s s := ⟨rfl, rfl, rfl, rfl, rfl, rfl, rfl, rfl, rfl⟩

theorem SameButInputs.withStream {bs : List Byte} (h : SameButInputs s u) : SameButInputs s (u.withStream bs) :=
  ⟨h.ctrl, h.dev, h.settle, h.params, h.answers, h.draws, h.hung, h.reply, h.trace⟩

theorem SameButInputs.withSched {evs : List EnvEvent} (h : SameButInputs s u) : SameButInputs s (u.withSched evs) :=
  ⟨h.ctrl, h.dev, h.settle, h.params, h.answers, h.draws, h.hung, h.reply, h.trace⟩

/-- The ways a step can answer a next state. -/
inductive Stepped (s : State) : State → Prop where
  | blockReset {rest} (h : s.env.sched = .blockReset :: rest) : Stepped s (s.withSched rest).blockReset
  | deviceReset {rest} (h : s.env.sched = .deviceReset :: rest) : Stepped s (s.withSched rest).deviceReset
  | quiet {u : State} (hs : SameButInputs s u) : Stepped s u
  | refused {u : State} (hs : SameButInputs s u) (r : Reason) : Stepped s (u.refuse r)
  | executed {u : State} {i : Instr} {w : State} (hs : SameButInputs s u) (hi : isHostCommand i = true)
      (hb : s.ctrl.phase ≠ .busy) (hd : decode s.env.stream = .ok (i, u.env.stream)) (h : exec i u = .next w) : Stepped s w
  | continued {u : State} {i : Instr} {w : State} (hs : SameButInputs s u) (hb : s.ctrl.phase = .busy) (hc : s.ctrl.cmd = some i)
      (h : exec i u = .next w) : Stepped s w

theorem issueCommand_next (hs : SameButInputs s u) (hst : u.env.stream = s.env.stream) (h : issueCommand u = .next w) :
    Stepped s w := by
  unfold issueCommand at h
  split at h
  · exact (Host.Outcome.next.inj h) ▸ .quiet hs
  · exact (Host.Outcome.next.inj h) ▸ .refused hs.withStream _
  · rename_i i rest hd
    split_ifs at h with hb
    · exact (Host.Outcome.next.inj h) ▸ .refused hs.withStream _
    · exact .executed hs.withStream (isHostCommand_of_decode hd) (hs.ctrl ▸ hb) (hst ▸ hd) h

theorem proceed_next (hs : SameButInputs s u) (hst : u.env.stream = s.env.stream) (h : proceed u = .next w) : Stepped s w := by
  unfold proceed at h
  split_ifs at h with hb
  · split at h
    · rename_i i hc
      exact .continued hs (hs.ctrl ▸ hb) (hs.ctrl ▸ hc) h
    · simp at h
  · exact issueCommand_next hs hst h

/-- A step answers a next state only for a well-formed parameter set, and in one of these ways. -/
theorem step_next (h : step s = .next w) : wellFormedParams s.params = true ∧ Stepped s w := by
  unfold step checkedEvent at h
  split_ifs at h with hp
  refine ⟨hp, ?_⟩
  unfold nextEvent at h
  split at h
  · exact proceed_next .refl rfl h
  · rename_i rest _
    exact proceed_next (u := s.withSched rest) SameButInputs.refl.withSched rfl h
  · rename_i rest _
    exact issueCommand_next (u := s.withSched rest) SameButInputs.refl.withSched rfl h
  · rename_i rest hs
    exact (Host.Outcome.next.inj h) ▸ .blockReset hs
  · rename_i rest hs
    exact (Host.Outcome.next.inj h) ▸ .deviceReset hs

/-! ### What a step does to CTRL -/

/-- The ways a step that is no block reset leaves CTRL: unchanged, with a LOAD_FRAME's cells, with a command accepted, or
by a micro-step performed. -/
inductive CtrlStep (s w : State) : Prop where
  | same (h : w.ctrl = s.ctrl)
  | loaded {f : List Byte} (h : Admitted s w (.loadFrame f))
      (hc : w.ctrl = { s.ctrl with lframe := frameOfBytes f })
  | accepted {i : Instr} (h : Accepted s w i)
      (hc : w.ctrl = { s.ctrl with
        cmd := some i, phase := .busy, seqPc := w.ctrl.seqPc, ready := w.ctrl.ready })
      (hr : w.ctrl.ready = s.ctrl.ready ∨ i = .resetSeq ∨ i = .setup)
  | performed {u : State} {i : Instr} {t : Table} {l : Label} {nxt : Option Label} {act : Action}
      (hu : SameButInputs s u) (hb : s.ctrl.phase = .busy) (hc : s.ctrl.cmd = some i)
      (ht : commandTable i = some t) (hl : s.ctrl.seqPc = some l) (hn : t.after l = some nxt)
      (ha : labelAction u l = some act) (hp : Performed l act nxt u w)

theorem firstStep_of_table (ht : commandTable i = some t) : ∃ l, firstStep i = some l := by
  cases i <;> first | (cases ht; done) | exact ⟨_, rfl⟩

/-- A command of the host that CTRL takes while it is not `BUSY`. -/
theorem ctrlStep_of_executed (hs : SameButInputs s u) (hi : isHostCommand i = true) (hb : s.ctrl.phase ≠ .busy)
    (hd : decode s.env.stream = .ok (i, u.env.stream)) (h : exec i u = .next w) : CtrlStep s w := by
  have he : u.executing i = false := by
    cases hx : u.executing i with
    | false => rfl
    | true => exact absurd (hs.ctrl ▸ (executing_iff.1 hx).1) hb
  rcases exec_next hi h with h | ⟨h, -⟩
  · cases h with
    | refused r => exact .same (by simpa using hs.ctrl)
    | waiting hx => rw [he] at hx; cases hx
    | step hx => rw [he] at hx; cases hx
    | accepted _ hf =>
      rw [firstRefusal_ownChecks hi, hs.ctrl] at hf
      have had : ∀ w : State, w.env.stream = u.env.stream → Admitted s w i :=
        fun w e => ⟨phase_of_firstFailing hf, e ▸ hd, hf⟩
      cases ht : commandTable i with
      | some t =>
        obtain ⟨l, hl⟩ := firstStep_of_table ht
        have hfst := table_first ht
        cases i <;> cases ht <;>
          (refine .accepted ⟨had _ rfl, rfl, rfl, l, hl, ?_⟩ ?_ ?_ <;>
            simp [State.acceptedBy, commandTable, State.accept, State.admitted, State.clearReady, hfst, hl, hs.ctrl])
      | none =>
        cases i <;> first | (cases ht; done) | (cases hi; done) | skip
        case loadFrame f => exact .loaded (had _ rfl) (by rw [← hs.ctrl]; rfl)
        all_goals exact .same hs.ctrl
  · exact absurd (hs.ctrl ▸ h) hb

/-- The command in `CMD` going on. -/
theorem ctrlStep_of_continued (hs : SameButInputs s u) (hb : s.ctrl.phase = .busy) (hc : s.ctrl.cmd = some i)
    (h : exec i u = .next w) : CtrlStep s w := by
  cases hi : isHostCommand i with
  | false =>
    obtain ⟨a, p, -, -, rfl⟩ := exec_wire_next hi h
    exact .same (by simpa using hs.ctrl)
  | true =>
    have he : u.executing i = true := executing_iff.2 ⟨hs.ctrl ▸ hb, hs.ctrl ▸ hc⟩
    rcases exec_next hi h with h | ⟨-, rfl⟩
    · cases h with
      | refused r hx => rw [he] at hx; cases hx
      | accepted hx => rw [he] at hx; cases hx
      | waiting => exact .same hs.ctrl
      | step _ hh ht hl hn ha hp => exact .performed hs hb hc ht (hs.ctrl ▸ hl) hn ha hp
    · exact .same (by simpa using hs.ctrl)

theorem ctrlStep_of_stepped (h : Stepped s w) (hr : ∀ evs, s.env.sched ≠ .blockReset :: evs) : CtrlStep s w := by
  cases h with
  | blockReset h => exact absurd h (hr _)
  | deviceReset h => refine .same ?_; unfold State.deviceReset; split_ifs <;> rfl
  | quiet hs => exact .same hs.ctrl
  | refused hs r => exact .same (by simpa using hs.ctrl)
  | executed hs hi hb hd h => exact ctrlStep_of_executed hs hi hb hd h
  | continued hs hb hc h => exact ctrlStep_of_continued hs hb hc h

end Sys2Proof.Machine
end

