-- ==== Sys2Proof/Tests/Slice0.lean ====
section
/-! SUPPORT. The model's own tests: ill-formed terms and parameters that the checks refuse, words of the spec that the
decoders read, one-step tests with the values of 95_test_vectors.md, and for each obligation states that meet its
hypotheses. -/

namespace Sys2Proof.Tests

open Sys2Proof.Config Sys2Proof.Machine

/-! ### Small states -/

/-- The fixture rasterizer `SOLID` of 95_test_vectors.md: `w('H') = 5` and `w('i') = 1`, every cell 0xFF. -/
def solidFont : List (Char × Glyph) :=
  [('H', { width := 5, columns := List.replicate 5 (List.replicate 7 (some 0xFF)) }),
   ('i', { width := 1, columns := [List.replicate 7 (some 0xFF)] })]

/-- R8's defaults with `DISPLAY_TEXT = "Hi"`. -/
def hiParams : Params := { defaultParams with displayText := ['H', 'i'], font := solidFont }

/-- The block after a reset, over a transport that answers `ok` to its next `n` calls. -/
def fresh (n : Nat) : State := { State.reset with env := { Env.start with answers := List.replicate n .ok } }

/-- An opened, bound and set-up block. -/
def ready (n : Nat) : State := { fresh n with ctrl := { Ctrl.reset with opened := 1, bound := 1, ready := 1 } }

/-- The device's selected bank set. -/
def withBank (s : State) (b : Byte) : State := { s with dev := { s.dev with banksel := some b } }

/-- The command `i` executing at label `l`. -/
def runningAt (s : State) (i : Instr) (l : Label) : State :=
  { s with ctrl := { s.ctrl with phase := .busy, cmd := some i, seqPc := some l } }

/-- The transport's next answer set. -/
def answering (s : State) (r : Answer) : State := { s with env := { s.env with answers := [r] } }

/-- The host's stream and ENV's schedule set. -/
def offered (s : State) (bytes : List Byte) (evs : List EnvEvent) : State :=
  { s with env := { s.env with stream := bytes, sched := evs } }

/-- A property of the next state an outcome gives; false of a fault and a refusal. -/
def nextHas (o : Out) (p : State → Bool) : Bool :=
  match o with
  | .next t => p t
  | .fault _ => false
  | .refused _ => false

/-- The outcome is this fault. -/
def faults (o : Out) (f : Fault) : Bool :=
  match o with
  | .next _ => false
  | .fault g => g == f
  | .refused _ => false

theorem exists_next {o : Out} (h : nextHas o (fun _ => true) = true) : ∃ w, o = .next w := by
  cases o with
  | next w => exact ⟨w, rfl⟩
  | fault f => simp [nextHas] at h
  | refused r => simp [nextHas] at h

/-! ### Ill-formed terms and parameters (30_encoding.md R92, R93, R96, R97; 00_scope.md R8 to R10) -/

/-- An operand outside its format: a block of 0 or of 256 bytes, a frame of 118 bytes, opcodes outside their range. -/
theorem test_ill_formed_commands :
    ∀ i ∈ [Instr.writeBlock 0x24 [], .writeBlock 0x24 (List.replicate 256 0), .loadFrame (List.replicate 118 0),
        .reserved03 0x02, .reserved03 0x10, .reserved14 0x13, .reserved14 0x20, .reserved24 0x23, .reserved24 0x30,
        .reserved33 0x32, .reserved33 0x40, .reserved44 0x43],
      wellFormed defaultParams i = false := by decide +kernel

/-- A wire class whose own condition of R92 fails. -/
theorem test_ill_formed_classes :
    ∀ i ∈ [Instr.xbank 0xFC 0, .xmode 0x01 0, .xframe 0x00 0, .xaudio 0x05 0, .xshut 0x0B 0, .xen 0x00 [],
        .xen 0x11 [1, 2], .xcol 0x24 [], .xcol 0x23 [1, 2], .xmix 0x00 [1, 2], .xmix 0x24 [1], .xmix 0x11 [1, 2],
        .xcfgblk 0x00 [1], .xcfgblk 0x01 [1, 2], .xreserved 0x00 []],
      wellFormed defaultParams i = false := by decide

/-- One parameter set for each clause of R9 (a) to (f), for R8's nonzero exit code and for R10's bound on the text. -/
theorem test_ill_formed_params :
    ∀ c ∈ [{ defaultParams with colorBase := 0x71 }, { defaultParams with enableBase := 0xF8 },
        { defaultParams with colorBase := 0x11 }, { defaultParams with bankRegister := 0x11 },
        { defaultParams with bankRegister := 0xB3 }, { defaultParams with shutdownRegister := 0xFD },
        { defaultParams with frameRegister := 0x00 }, { defaultParams with configBank := 1 },
        { defaultParams with enableRegCount := 16 }, { defaultParams with failExitCode := 0 },
        { defaultParams with displayText := ['H'], font := [('H', { width := 2 ^ 31 - 18, columns := [] })] }],
      wellFormedParams c = false := by decide

theorem test_default_params : wellFormedParams defaultParams = true ∧ wellFormedParams hiParams = true := by decide

/-! ### Decoding: words written out from the spec's encodings (30_encoding.md R92, R93, R95, R96) -/

/-- `OPEN`, `BIND` and N1, N2, N3, N5, N6 of 95_test_vectors.md, each followed by a byte that is left. -/
theorem test_decode_adapter :
    decode [0x00, 0x99] = .ok (.nop, [0x99]) ∧ decode [0x01, 0x99] = .ok (.openDev, [0x99]) ∧
    decode [0x02, 0x99] = .ok (.bindDev, [0x99]) ∧
    decode [0x10, 0x0A, 0x01, 0x99] = .ok (.writeReg 0x0A 0x01, [0x99]) ∧
    decode [0x11, 0x24, 0x03, 0xAA, 0xBB, 0xCC, 0x99] = .ok (.writeBlock 0x24 [0xAA, 0xBB, 0xCC], [0x99]) ∧
    decode [0x12, 0x01, 0x99] = .ok (.selectBank 0x01, [0x99]) ∧
    decode [0x13, 0x01, 0x02, 0x99] = .ok (.writeConfig 0x01 0x02, [0x99]) :=
  ⟨rfl, rfl, rfl, rfl, rfl, rfl, rfl⟩

theorem test_decode_setup :
    decode [0x20] = .ok (.resetSeq, []) ∧ decode [0x21] = .ok (.configureSeq, []) ∧
    decode [0x22] = .ok (.enableSeq, []) ∧ decode [0x23] = .ok (.setup, []) := ⟨rfl, rfl, rfl, rfl⟩

/-- N7: byte `1 + 17*y + x` of LOAD_FRAME is cell (x, y); here the operand is 0, 1, ..., 118. -/
theorem test_decode_mapper :
    decode (0x30 :: (List.range 119).map (BitVec.ofNat 8) ++ [0x99]) =
      .ok (.loadFrame ((List.range 119).map (BitVec.ofNat 8)), [0x99]) ∧
    decode [0x31] = .ok (.map, []) := ⟨rfl, rfl⟩

theorem test_decode_scroll :
    decode [0x32] = .ok (.present, []) ∧ decode [0x40] = .ok (.scrollInit, []) ∧ decode [0x41] = .ok (.tick, []) ∧
    decode [0x42] = .ok (.scroll, []) ∧ decode [0x43] = .ok (.run, []) := ⟨rfl, rfl, rfl, rfl, rfl⟩

/-- N8, N9 and the ends of R96's ranges. -/
theorem test_decode_reserved :
    decode [0x03] = .ok (.reserved03 0x03, []) ∧ decode [0x05] = .ok (.reserved03 0x05, []) ∧
    decode [0x0F] = .ok (.reserved03 0x0F, []) ∧ decode [0x14] = .ok (.reserved14 0x14, []) ∧
    decode [0x1F] = .ok (.reserved14 0x1F, []) ∧ decode [0x24] = .ok (.reserved24 0x24, []) ∧
    decode [0x2F] = .ok (.reserved24 0x2F, []) ∧ decode [0x33] = .ok (.reserved33 0x33, []) ∧
    decode [0x3F] = .ok (.reserved33 0x3F, []) ∧ decode [0x44] = .ok (.reserved44 0x44, []) ∧
    decode [0xFF] = .ok (.reserved44 0xFF, []) := ⟨rfl, rfl, rfl, rfl, rfl, rfl, rfl, rfl, rfl, rfl, rfl⟩

/-- N10, and the other formats cut short. -/
theorem test_decode_truncated :
    decode (0x30 :: List.replicate 50 0) = .error .truncated ∧ decode [0x10, 0x0A] = .error .truncated ∧
    decode [0x11, 0x24, 0x03, 0xAA, 0xBB] = .error .truncated ∧ decode [0x12] = .error .truncated ∧
    decode [] = .error .endOfStream := ⟨rfl, rfl, rfl, rfl, rfl⟩

/-- One transfer of each class of R92 at R8's defaults. -/
theorem test_decode_wire :
    decodeWire defaultParams none [0xFD, 0x01] = some (.xbank 0xFD 0x01) ∧
    decodeWire defaultParams (some 0x0B) [0x00, 0x00] = some (.xmode 0x00 0x00) ∧
    decodeWire defaultParams (some 0x0B) [0x01, 0x01] = some (.xframe 0x01 0x01) ∧
    decodeWire defaultParams (some 0x0B) [0x06, 0x00] = some (.xaudio 0x06 0x00) ∧
    decodeWire defaultParams (some 0x0B) [0x0A, 0x01] = some (.xshut 0x0A 0x01) ∧
    decodeWire defaultParams (some 0x00) (0x00 :: List.replicate 17 0xFF) =
      some (.xen 0x00 (List.replicate 17 0xFF)) ∧
    decodeWire defaultParams (some 0x01) [0xB3, 0x7F] = some (.xcol 0xB3 [0x7F]) ∧
    decodeWire { defaultParams with colorBase := 0x12 } (some 0x00) [0x11, 0xAA, 0xBB] =
      some (.xmix 0x11 [0xAA, 0xBB]) ∧
    decodeWire defaultParams (some 0x0B) [0x00, 0x00, 0x01] = some (.xcfgblk 0x00 [0x00, 0x01]) ∧
    decodeWire defaultParams (some 0x00) [0x11, 0x01, 0x02] = some (.xreserved 0x11 [0x01, 0x02]) ∧
    decodeWire defaultParams none [0x00, 0x00] = some (.xreserved 0x00 [0x00]) := by decide

/-- A table word is the command's bytes from bit 0 up, with zeros above: WRITE_REG, and WRITE_BLOCK with a count of 0. -/
theorem test_table_word :
    decodeTableWord 24 0x010A10 = some (.writeReg 0x0A 0x01) ∧ decodeTableWord 8 0x11 = some (.writeBlock 0 []) ∧
    decodeTableWord 8 0x30 = some (.loadFrame (List.replicate 119 0)) := by decide +kernel

/-! ### One step, with the values of 95_test_vectors.md -/

/-- A22, X2: NOP changes nothing in `IDLE`, and is refused in `DONE`. -/
theorem test_nop :
    nextHas (exec .nop (ready 0)) (fun t => t.ctrl == (ready 0).ctrl && t.dev == (ready 0).dev &&
      t.env.reply == some .accepted) ∧
    nextHas (exec .nop { fresh 0 with ctrl := { Ctrl.reset with phase := .done } })
      (fun t => t.env.reply == some (.refused .terminal) && t.ctrl.phase == .done) := by decide

/-- A15: `open` answers `err`. -/
theorem test_open_err :
    nextHas (exec .openDev (answering (runningAt (fresh 0) .openDev .O1) .err)) (fun t =>
      t.ctrl.phase == .failed && t.ctrl.cause == 0x01 && t.ctrl.causeStep == some .O1 && t.ctrl.opened == 0 &&
        t.ctrl.exit == some 1 && t.ctrl.seqPc == none) := by decide

/-- A21: `open` answers `hang`. -/
theorem test_open_hang :
    nextHas (exec .openDev (answering (runningAt (fresh 0) .openDev .O1) .hang)) (fun t =>
      t.ctrl.phase == .busy && t.ctrl.seqPc == some .O1 && nextHas (exec .openDev t) (· == t)) := by decide

/-- A17, A20: BIND is refused before OPEN and after BIND. -/
theorem test_bind_refused :
    nextHas (exec .bindDev (fresh 0)) (fun t => t.env.reply == some (.refused .notOpen)) ∧
    nextHas (exec .bindDev (ready 0)) (fun t => t.env.reply == some (.refused .alreadyBound)) := by decide

/-- A16: `bindAddress` answers `err`. -/
theorem test_bind_err :
    nextHas (exec .bindDev (answering (runningAt (fresh 0) .bindDev .O2) .err)) (fun t =>
      t.ctrl.phase == .failed && t.ctrl.cause == 0x02 && t.ctrl.causeStep == some .O2 && t.ctrl.bound == 0) := by decide

/-- R124's example: in the config bank, WRITE_REG 0x0A, 0x01 sets the shutdown register. -/
theorem test_write_reg :
    nextHas (exec (.writeReg 0x0A 0x01) (runningAt (withBank (ready 1) 0x0B) (.writeReg 0x0A 0x01) .W1)) (fun t =>
      t.dev.shutdown == some 0x01 && t.ctrl.phase == .idle && t.env.trace == [.transfer [0x0A, 0x01] .ok]) := by decide

/-- A11: the transfer answers `err`. -/
theorem test_write_reg_err :
    nextHas (exec (.writeReg 0x0A 0x00)
        (answering (runningAt (withBank (ready 0) 0x0B) (.writeReg 0x0A 0x00) .W1) .err)) (fun t =>
      t.dev.shutdown == none && t.ctrl.phase == .failed && t.ctrl.cause == 0x03 && t.ctrl.causeInner == 0x00 &&
        t.ctrl.causeStep == some .W1 && t.ctrl.exit == some 1) := by decide

/-- A7: a block in the enable area of bank 0. -/
theorem test_write_block :
    nextHas (exec (.writeBlock 0x10 [0xAA, 0xBB])
        (runningAt (withBank (ready 1) 0x00) (.writeBlock 0x10 [0xAA, 0xBB]) .W1)) (fun t =>
      t.dev.enableByte 0 16 == some 0xAA && t.dev.enableByte 0 17 == some 0xBB && t.dev.enableByte 1 16 == some 0) := by
  decide

/-- X5: a count of 0 is `BadOperand` before `NotBound`. -/
theorem test_write_block_empty :
    nextHas (exec (.writeBlock 0x24 []) (fresh 0)) (fun t => t.env.reply == some (.refused .badOperand)) := by decide

/-- A13: a bank select is emitted though the bank is already 1. -/
theorem test_select_bank :
    nextHas (exec (.selectBank 0x01) (runningAt (withBank (ready 1) 0x01) (.selectBank 0x01) .W1)) (fun t =>
      t.dev.banksel == some 0x01 && t.env.trace == [.transfer [0xFD, 0x01] .ok]) := by decide

/-- A12: C1 answers `err`; C2 is not issued. -/
theorem test_write_config_err :
    nextHas (exec (.writeConfig 0x01 0x01)
        (answering (runningAt (ready 0) (.writeConfig 0x01 0x01) .C1) .err)) (fun t =>
      t.dev.banksel == none && t.ctrl.cause == 0x03 && t.ctrl.causeStep == some .C1 && t.ctrl.seqPc == none) := by decide

/-- A10 at C2: the address names no config register. R4 at C2: a 0x00 in the shutdown register sets `SETTLE_PENDING`. -/
theorem test_write_config_c2 :
    faults (exec (.writeConfig 0x02 0x00) (runningAt (withBank (ready 1) 0x0B) (.writeConfig 0x02 0x00) .C2))
      .undefinedRegister ∧
    nextHas (exec (.writeConfig 0x0A 0x00) (runningAt (withBank (ready 1) 0x0B) (.writeConfig 0x0A 0x00) .C2)) (fun t =>
      t.dev.shutdown == some 0x00 && t.settlePending) := by decide

/-- T7: `READY` is 0 from acceptance on. R6: S2 does not set `SETTLE_PENDING`, and S5 clears it. -/
theorem test_reset_seq :
    nextHas (exec .resetSeq (ready 0)) (fun t =>
      t.ctrl.ready == 0 && t.ctrl.phase == .busy && t.ctrl.seqPc == some .S1) ∧
    nextHas (exec .resetSeq (runningAt (withBank (ready 1) 0x0B) .resetSeq .S2)) (fun t => !t.settlePending) ∧
    nextHas (exec .resetSeq { runningAt (withBank (ready 1) 0x0B) .resetSeq .S5 with settlePending := true }) (fun t =>
      t.dev.shutdown == some 0x01 && !t.settlePending && t.ctrl.phase == .idle) := by decide

/-- T10: CONFIGURE_SEQ's last two stores. -/
theorem test_configure_seq :
    nextHas (exec .configureSeq (runningAt (withBank (ready 1) 0x0B) .configureSeq .S9)) (fun t =>
      t.dev.mode == some 0x00 && t.ctrl.seqPc == some .S10) ∧
    nextHas (exec .configureSeq (runningAt (withBank (ready 1) 0x0B) .configureSeq .S11)) (fun t =>
      t.dev.audioSync == some 0x00 && t.ctrl.phase == .idle && t.ctrl.ready == 1) := by decide

/-- T9: bank 1's seventeen enable bytes, and not the eighteenth. -/
theorem test_enable_seq :
    nextHas (exec .enableSeq (runningAt (withBank (ready 1) 0x01) .enableSeq .S15)) (fun t =>
      t.dev.enableByte 1 0 == some 0xFF && t.dev.enableByte 1 16 == some 0xFF && t.dev.enableByte 1 17 == some 0x00 &&
        t.dev.enableByte 0 0 == some 0x00 && t.ctrl.phase == .idle) := by decide +kernel

/-- T5: S13 answers `err` inside SETUP. -/
theorem test_setup_err :
    nextHas (exec .setup (answering (runningAt (withBank (ready 0) 0x00) .setup .S13) .err)) (fun t =>
      t.dev.banksel == some 0x00 && t.dev.enableByte 0 0 == none && t.dev.enableByte 0 16 == none &&
        t.dev.enableByte 1 0 == some 0x00 && t.ctrl.cause == 0x04 && t.ctrl.causeInner == 0x03 &&
        t.ctrl.causeStep == some .S13) := by decide +kernel

/-- T1's end, and RUN's way on from S16. -/
theorem test_setup_ready :
    nextHas (exec .setup (runningAt (fresh 0) .setup .S16)) (fun t => t.ctrl.ready == 1 && t.ctrl.phase == .idle) ∧
    nextHas (exec .run (runningAt (fresh 0) .run .S16)) (fun t =>
      t.ctrl.ready == 1 && t.ctrl.seqPc == some .I1 && t.ctrl.phase == .busy) := by decide

/-- R168's example: cell (16, 0) is operand byte 16. -/
theorem test_load_frame :
    nextHas (exec (.loadFrame ((List.range 119).map fun k => if k = 16 then 0xFF else 0x00)) (fresh 0)) (fun t =>
      t.ctrl.lframe == [(16, 0xFF)] && t.ctrl.phase == .idle && t.ctrl.pbuf == []) := by decide +kernel

/-- M1 and M11: cells (0, 0) and (7, 2); M15: nothing is left of the old buffer. -/
theorem test_map :
    nextHas (exec .map { runningAt (fresh 0) .map .M1 with
        ctrl := { (runningAt (fresh 0) .map .M1).ctrl with lframe := [(0, 0x80), (41, 0x37)], pbuf := [(7, 0x55)] } })
      (fun t => t.ctrl.pbuf == [(20, 0x37), (134, 0x80)] && t.ctrl.phase == .idle) := by decide +kernel

/-- S6 at U3: the colour block of bank 0. -/
theorem test_present_block :
    nextHas (exec .present { runningAt (withBank (ready 1) 0x00) .present .U3 with
        ctrl := { (runningAt (ready 1) .present .U3).ctrl with pbuf := [(0, 0xFF)] } }) (fun t =>
      t.dev.colorByte 0 0 == some 0xFF && t.dev.colorByte 0 143 == some 0x00 && t.dev.colorByte 1 0 == none &&
        t.ctrl.seqPc == some .U4) := by decide +kernel

/-- S9: U5 answers `err`; `ACTIVE` is not toggled. X4: `NotBound` before `NotReady`. -/
theorem test_present_err :
    nextHas (exec .present (answering (runningAt (withBank (ready 0) 0x0B) .present .U5) .err)) (fun t =>
      t.dev.frame == none && t.ctrl.active == 0 && t.ctrl.cause == 0x03 && t.ctrl.causeStep == some .U5) ∧
    nextHas (exec .present (fresh 0)) (fun t => t.env.reply == some (.refused .notBound)) := by decide

/-- S15. -/
theorem test_scroll_init :
    nextHas (exec .scrollInit { runningAt (fresh 0) .scrollInit .I1 with
        ctrl := { (runningAt (fresh 0) .scrollInit .I1).ctrl with offset := -5, active := 1, textw := 7 } }) (fun t =>
      t.ctrl.offset == 0 && t.ctrl.active == 0 && t.ctrl.textw == 0 && t.ctrl.phase == .idle) := by decide

/-- S11 and S12 at K3: with W = 7 the frame is written at `OFFSET` -24, and the scroll ends at -25. -/
theorem test_tick_end :
    nextHas (exec .tick { runningAt (ready 0) .tick .K3 with
        ctrl := { (runningAt (ready 0) .tick .K3).ctrl with offset := -24, textw := 7 } }) (fun t =>
      t.ctrl.phase == .busy && t.ctrl.seqPc == some .U1) ∧
    nextHas (exec .tick { runningAt (ready 0) .tick .K3 with
        ctrl := { (runningAt (ready 0) .tick .K3).ctrl with offset := -25, textw := 7 } }) (fun t =>
      t.ctrl.phase == .done && t.ctrl.exit == some 0 && t.ctrl.seqPc == none) := by decide

/-- S16: TICK is refused while `READY` is 0. -/
theorem test_tick_refused :
    nextHas (exec .tick { ready 0 with ctrl := { (ready 0).ctrl with ready := 0 } }) (fun t =>
      t.env.reply == some (.refused .notReady)) := by decide

/-- R191: K4 goes back to K1 in SCROLL, and ends TICK. -/
theorem test_scroll_loop :
    nextHas (exec .scroll (runningAt (ready 0) .scroll .K4)) (fun t =>
      t.ctrl.seqPc == some .K1 && t.env.trace == [.wait 100]) ∧
    nextHas (exec .tick (runningAt (ready 0) .tick .K4)) (fun t => t.ctrl.phase == .idle) := by decide

/-- S10's tick 14 at K2: at cursor 3 the lit columns are 3 to 7 and 9 (also S2). -/
theorem test_scroll_render :
    nextHas (exec .scroll { runningAt (ready 0) .scroll .K2 with
        params := hiParams
        ctrl := { (runningAt (ready 0) .scroll .K2).ctrl with offset := -14 } }) (fun t =>
      t.ctrl.textw == 7 && (List.range 17).all (fun x => (List.range 7).all fun y =>
        frameCell t.ctrl.lframe x y == if (3 ≤ x ∧ x ≤ 7) ∨ x = 9 then 0xFF else 0x00)) := by decide +kernel

/-- S3: at cursor -3 only H's last two columns and i are in the window. -/
theorem test_render_clipped :
    (List.range 17).all (fun x => (List.range 7).all fun y =>
      frameCell (render hiParams (-3)).1 x y == if x ≤ 1 ∨ x = 3 then 0xFF else 0x00) ∧
    (render hiParams (-3)).2 = 7 := by decide +kernel

/-- X6: `open` fails in RUN. X9: RUN is refused when already open. -/
theorem test_run :
    nextHas (exec .run (answering (runningAt (fresh 0) .run .O1) .err)) (fun t =>
      t.ctrl.cause == 0x01 && t.ctrl.causeStep == some .O1) ∧
    nextHas (exec .run (ready 0)) (fun t => t.env.reply == some (.refused .alreadyOpen)) := by decide

/-- N9: each reserved range is refused with `BadOpcode`. X1: `Terminal` comes first. -/
theorem test_reserved :
    (∀ i ∈ [Instr.reserved03 0x0F, .reserved14 0x14, .reserved24 0x24, .reserved33 0x33, .reserved44 0x44],
      nextHas (exec i (fresh 0)) (fun t => t.env.reply == some (.refused .badOpcode) && t.ctrl == Ctrl.reset)) ∧
    nextHas (exec (.reserved03 0x05) { fresh 0 with ctrl := { Ctrl.reset with phase := .failed } })
      (fun t => t.env.reply == some (.refused .terminal)) := by decide

/-- R92's one-byte rows. -/
theorem test_wire_one_byte :
    nextHas (exec (.xbank 0xFD 0x05) (fresh 0)) (fun t => t.dev.banksel == some 0x05) ∧
    nextHas (exec (.xmode 0x00 0x07) (withBank (fresh 0) 0x0B)) (fun t => t.dev.mode == some 0x07) ∧
    nextHas (exec (.xframe 0x01 0x01) (withBank (fresh 0) 0x0B)) (fun t => t.dev.frame == some 0x01) ∧
    nextHas (exec (.xaudio 0x06 0x02) (withBank (fresh 0) 0x0B)) (fun t => t.dev.audioSync == some 0x02) ∧
    nextHas (exec (.xshut 0x0A 0x01) (withBank (fresh 0) 0x0B)) (fun t => t.dev.shutdown == some 0x01) := by decide

/-- R92's block rows; A14b; P4's stale-bank write of EN[1][1]. -/
theorem test_wire_blocks :
    nextHas (exec (.xen 0x01 [0x01]) (withBank (fresh 0) 0x01)) (fun t => t.dev.enableByte 1 1 == some 0x01) ∧
    nextHas (exec (.xcol 0x25 [0x01, 0x02]) (withBank (fresh 0) 0x00)) (fun t =>
      t.dev.colorByte 0 1 == some 0x01 && t.dev.colorByte 0 2 == some 0x02 && t.dev.colorByte 0 0 == none) ∧
    nextHas (exec (.xmix 0x11 [0xAA, 0xBB])
        { withBank (fresh 0) 0x00 with params := { defaultParams with colorBase := 0x12 } }) (fun t =>
      t.dev.enableByte 0 17 == some 0xAA && t.dev.colorByte 0 0 == some 0xBB) ∧
    nextHas (exec (.xcfgblk 0x00 [0x00, 0x01]) (withBank (fresh 0) 0x0B)) (fun t =>
      t.dev.mode == some 0x00 && t.dev.frame == some 0x01) := by decide

/-- A2 to A6 and A8: the five model faults. -/
theorem test_wire_reserved :
    faults (exec (.xreserved 0x0A [0x01]) (fresh 0)) .bankUnknown ∧
    faults (exec (.xreserved 0x00 [0x00]) (withBank (fresh 0) 0x05)) .unmodelledBank ∧
    faults (exec (.xreserved 0x20 [0x00]) (withBank (fresh 0) 0x00)) .undefinedRegister ∧
    faults (exec (.xreserved 0x11 [0x01, 0x02]) (withBank (fresh 0) 0x00)) .undefinedRegister ∧
    faults (exec (.xreserved 0xF0 (List.replicate 17 0x00)) (withBank (fresh 0) 0x00)) .addressOverflow ∧
    faults (exec (.xreserved 0xFD [0x01, 0x02]) (fresh 0)) .bankRegisterBlock := by decide

/-! ### The step -/

/-- A table word's command is the one the next step runs: OPEN from reset. -/
theorem test_with_fetch_word :
    nextHas (step (State.reset.withFetchWord 8 0x01)) (fun t =>
      t.ctrl.phase == .busy && t.ctrl.cmd == some .openDev && t.ctrl.seqPc == some .O1) := by decide +kernel

/-- X3: a command attempted while another executes is refused with `Busy`; N10: a truncated one with `BadOperand`. -/
theorem test_attempt :
    nextHas (step (offered (runningAt (ready 0) .scroll .K1) [0x41] [.attempt])) (fun t =>
      t.env.reply == some (.refused .busy) && t.ctrl.seqPc == some .K1 && t.env.stream == []) ∧
    nextHas (step (offered (ready 0) [0x10, 0x0A] [])) (fun t => t.env.reply == some (.refused .badOperand)) := by
  decide

/-- R1: block reset keeps the device. R2: an external reset keeps CTRL. -/
theorem test_resets :
    nextHas (step (offered (runningAt (withBank (ready 0) 0x01) .present .U3) [] [.blockReset])) (fun t =>
      t.ctrl == Ctrl.reset && t.dev.banksel == some 0x01) ∧
    nextHas (step (offered (runningAt (withBank (ready 0) 0x01) .present .U3) [] [.deviceReset])) (fun t =>
      t.ctrl.seqPc == some .U3 && t.dev == Dev.powerOn) := by decide

/-- T3 and P4: with bank 1 shown, LED 140 has no lit enable bit, and of LEDs 8 to 15 only LED 8 is enabled. -/
theorem test_display :
    (fun s : State => disp s 140 == some 0x00 && disp s 8 == some 0xFF && disp s 9 == some 0x00 && disp s 16 == none)
      { fresh 0 with dev := {
          banksel := none, mode := some 0x00, frame := some 0x01, audioSync := some 0x00, shutdown := some 0x01
          en := [(257, some 0x01), (258, some 0xFF)]
          col := [(264, some 0xFF), (265, some 0xFF)] } } = true := by decide

/-! ### States that meet the obligations' hypotheses

Each theorem names the obligation; where the obligation has several clauses, each has its instance, at a boundary value
where the clause has a range. -/

/-- The block opened and not yet bound. -/
def openedOnly (n : Nat) : State := { fresh n with ctrl := { Ctrl.reset with opened := 1 } }

/-- A block and a device in the middle of SCROLL's third tick: bank 0 selected, its colour block to be written next. -/
def midScroll : State :=
  { runningAt (ready 8) .scroll .U3 with
    ctrl := { (runningAt (ready 8) .scroll .U3).ctrl with
      offset := -3, textw := 7, lframe := [(0, 0x80)], pbuf := [(134, 0x80)] }
    dev := { Dev.powerOn with banksel := some 0x00, en := [(0, some 0xFF), (256, none)], col := [(143, some 0x01)] }
    params := hiParams }

/-- The same block at K1 of its next tick, at the offset where only the terminating tick is left. -/
def lastTick : State :=
  { midScroll with ctrl := { midScroll.ctrl with seqPc := some .K1, offset := -24 } }

theorem witness_HostCommandRoundTrip :
    ∀ i ∈ [Instr.writeBlock 0x24 [0x01], .writeBlock 0x24 (List.replicate 255 0x01),
        .loadFrame (List.replicate 119 0xFF), .reserved03 0x03, .reserved44 0xFF, .selectBank 0xFF],
      isHostCommand i = true ∧ wellFormed defaultParams i = true := by decide +kernel

theorem witness_HostStreamReencodes :
    decode [0x11, 0x24, 0x00, 0x99] = .ok (.writeBlock 0x24 [], [0x99]) ∧ decode [0x43] = .ok (.run, []) := ⟨rfl, rfl⟩

theorem witness_TruncatedCommandIsNoCommand :
    isHostCommand (.writeBlock 0x24 [0xAA, 0xBB]) = true ∧ wellFormed defaultParams (.writeBlock 0x24 [0xAA, 0xBB]) = true ∧
    0 < 4 ∧ 4 < (encode (.writeBlock 0x24 [0xAA, 0xBB])).length := by decide

theorem witness_WireClassRoundTrip :
    wellFormedParams defaultParams = true ∧
    (∀ i ∈ [Instr.xmode 0x00 0x01, .xframe 0x01 0x01, .xaudio 0x06 0x00, .xshut 0x0A 0x00, .xcfgblk 0x00 [0x01, 0x02]],
      isHostCommand i = false ∧ classApplies defaultParams (some 0x0B) i = true) ∧
    ∀ i ∈ [Instr.xbank 0xFD 0xFF, .xen 0x11 [0xFF], .xcol 0xB3 [0xFF]],
      isHostCommand i = false ∧ classApplies defaultParams (some 0x01) i = true := by decide

theorem witness_WireClassRoundTrip_mixed :
    wellFormedParams { defaultParams with colorBase := 0x12 } = true ∧
    classApplies { defaultParams with colorBase := 0x12 } (some 0x00) (.xmix 0x11 [0xAA, 0xBB]) = true := by decide

theorem witness_ReservedClassIsModelFault :
    wellFormedParams defaultParams = true ∧ ([0x01] : List Byte) ≠ [] ∧
    (transferFault defaultParams (some 0x00) 0x12 1).isSome = true ∧
    (transferFault defaultParams (some 0x00) 0x11 1).isSome = false := by decide

theorem witness_BankAddressMaps :
    wellFormedParams defaultParams = true ∧ target defaultParams 0x01 0x11 = some (.enable 1 17) ∧
    target defaultParams 0x00 0xB3 = some (.color 0 143) ∧ target defaultParams 0x00 0x12 = none ∧
    target defaultParams 0x0B 0x0A = some .shutdown ∧ target defaultParams 0x0B 0x02 = none := by decide

theorem witness_ConfigClassesStore :
    wellFormedParams (withBank (fresh 0) 0x0B).params = true ∧
    (withBank (fresh 0) 0x0B).dev.banksel = some (withBank (fresh 0) 0x0B).params.configBank := by decide

theorem witness_BlockClassesStore :
    classApplies defaultParams (some 0x01) (.xen 0x11 [0xFF]) = true ∧
    classApplies defaultParams (some 0x01) (.xcol 0xB3 [0xFF]) = true ∧
    classApplies defaultParams (some 0x0B) (.xcfgblk 0x00 [0x01, 0x02]) = true ∧
    (withBank (fresh 0) 0x01).dev.banksel = some 0x01 ∧ (withBank (fresh 0) 0x0B).dev.banksel = some 0x0B := by decide

/-- One state and transfer for each of the five clauses, the two address clauses at the highest address. -/
theorem witness_ReservedTransferStops :
    ([0x01, 0x02] : List Byte).length ≠ 1 ∧
    (0x00 : Byte) ≠ (fresh 0).params.bankRegister ∧ (fresh 0).dev.banksel = none ∧
    ((0x02 : Byte) ≠ 0 ∧ (0x02 : Byte) ≠ 1 ∧ (0x02 : Byte) ≠ (fresh 0).params.configBank) ∧
    0xFF < (0xFF : Byte).toNat + 2 - 1 ∧
    ((0xFF : Byte).toNat + 1 - 1 ≤ 0xFF ∧ target (fresh 0).params 0x00 ((0xFF : Byte).toNat + 0) = none) := by decide

/-- The hypotheses of the statements about one transfer micro-step, at S13 in SETUP. -/
theorem witness_TransferStepRunsWireClass :
    let s := runningAt (withBank (ready 1) 0x00) .setup .S13
    wellFormedParams s.params = true ∧ commandTable .setup = some setupTable ∧ Label.S13 ∈ setupTable.labels ∧
      s.runsAt .setup .S13 ∧ labelAction s .S13 = some (.xfer 0x00 (List.replicate 17 0xFF)) ∧
      s.env.nextAnswer = .ok ∧ transferFault s.params s.dev.banksel 0x00 17 = none := by decide

theorem witness_FailedTransferRaises :
    let s := answering (runningAt (withBank (ready 0) 0x00) .setup .S13) .err
    commandTable .setup = some setupTable ∧ Label.S13 ∈ setupTable.labels ∧ s.runsAt .setup .S13 ∧
      labelAction s .S13 = some (.xfer 0x00 (List.replicate 17 0xFF)) ∧ s.env.nextAnswer = .err ∧
      transferFault s.params s.dev.banksel 0x00 17 = none := by decide

/-- Both clauses: a bank-relative transfer is witnessed above, a bank select here. -/
theorem witness_FailedTransferHavoc :
    let s := answering (runningAt (ready 0) .scroll .U4) .err
    wellFormedParams s.params = true ∧ commandTable .scroll = some scrollTable ∧ Label.U4 ∈ scrollTable.labels ∧
      s.runsAt .scroll .U4 ∧ labelAction s .U4 = some (.xfer s.params.bankRegister [0x0B]) ∧
      s.env.nextAnswer = .err ∧ transferFault s.params s.dev.banksel s.params.bankRegister 1 = none := by decide

theorem witness_ModelFaultBeforeError :
    let s := answering (runningAt (withBank (ready 0) 0x0B) (.writeReg 0x24 0x00) .W1) .err
    commandTable (.writeReg 0x24 0x00) = some writeTable ∧ Label.W1 ∈ writeTable.labels ∧
      s.runsAt (.writeReg 0x24 0x00) .W1 ∧ labelAction s .W1 = some (.xfer 0x24 [0x00]) ∧
      s.env.nextAnswer ≠ .hang ∧ transferFault s.params s.dev.banksel 0x24 1 = some .undefinedRegister := by decide

/-- The three kinds of call. -/
theorem witness_HangStops :
    (let s := answering (runningAt (fresh 0) .openDev .O1) .hang;
      commandTable .openDev = some openTable ∧ Label.O1 ∈ openTable.labels ∧ s.runsAt .openDev .O1 ∧
        labelAction s .O1 = some .openNode ∧ s.env.nextAnswer = .hang) ∧
    (let s := answering (runningAt (openedOnly 0) .bindDev .O2) .hang;
      commandTable .bindDev = some bindTable ∧ Label.O2 ∈ bindTable.labels ∧ s.runsAt .bindDev .O2 ∧
        labelAction s .O2 = some .bindAddress ∧ s.env.nextAnswer = .hang) ∧
    (let s := answering (runningAt (ready 0) .present .U4) .hang;
      commandTable .present = some presentTable ∧ Label.U4 ∈ presentTable.labels ∧ s.runsAt .present .U4 ∧
        labelAction s .U4 = some (.xfer 0xFD [0x0B]) ∧ s.env.nextAnswer = .hang) := by decide

/-- Each of R222's nine reasons. -/
theorem witness_RefusedByFirstFailingCheck :
    firstFailing .nop { Ctrl.reset with phase := .failed } = some .terminal ∧
    (firstFailing .nop (runningAt (ready 0) .scroll .K1).ctrl = some .busy ∧
      (runningAt (ready 0) .scroll .K1).executing .nop = false) ∧
    firstFailing (.reserved44 0x44) Ctrl.reset = some .badOpcode ∧
    firstFailing (.writeBlock 0x24 []) Ctrl.reset = some .badOperand ∧
    firstFailing .run (openedOnly 0).ctrl = some .alreadyOpen ∧
    firstFailing .bindDev Ctrl.reset = some .notOpen ∧
    firstFailing .bindDev (ready 0).ctrl = some .alreadyBound ∧
    firstFailing .present Ctrl.reset = some .notBound ∧
    firstFailing .present { (ready 0).ctrl with ready := 0 } = some .notReady := by decide

/-- Each command with micro-steps. -/
theorem witness_AcceptanceEntersSequence :
    (∀ i ∈ [Instr.openDev, .map, .scrollInit, .run],
      (firstStep i).isSome = true ∧ firstFailing i (fresh 0).ctrl = none) ∧
    ((firstStep .bindDev).isSome = true ∧ firstFailing .bindDev (openedOnly 0).ctrl = none) ∧
    ∀ i ∈ [Instr.writeReg 0x00 0x00, .writeBlock 0x24 (List.replicate 255 0x00), .selectBank 0xFF,
        .writeConfig 0x01 0x01, .resetSeq, .configureSeq, .enableSeq, .setup, .present, .tick, .scroll],
      (firstStep i).isSome = true ∧ firstFailing i (ready 0).ctrl = none := by decide +kernel

theorem witness_NopAndReservedOpcodesChangeNothing : (fresh 0).ctrl.phase = .idle := by decide

theorem witness_LoadFrameStores :
    (fresh 0).ctrl.phase = .idle ∧ (List.replicate 119 (0xFF : Byte)).length = 119 := by decide

/-- Both phases, and the step's clause with the block reset and without it. -/
theorem witness_OnlyBlockResetLeavesTerminal :
    let s := { ready 0 with ctrl := { (ready 0).ctrl with phase := .done } }
    let u := { ready 0 with ctrl := { (ready 0).ctrl with phase := .failed } }
    s.ctrl.phase = .done ∧ u.ctrl.phase = .failed ∧
      nextHas (step (offered s [0x41] [])) (fun w => w.ctrl == s.ctrl) ∧
      nextHas (step (offered u [] [.blockReset])) (fun w => w.ctrl == Ctrl.reset) := by decide

theorem witness_MicroStepCompletes :
    let s := runningAt (withBank (ready 1) 0x0B) .run .S11
    commandTable .run = some runTable ∧ Label.S11 ∈ runTable.labels ∧ s.runsAt .run .S11 ∧ s.env.nextAnswer = .ok ∧
      transferFault s.params s.dev.banksel s.params.audioSyncRegister 1 = none := by decide

theorem witness_MicroStepCompletes_test :
    let s := { midScroll with ctrl := { midScroll.ctrl with seqPc := some .K3 } }
    commandTable .scroll = some scrollTable ∧ Label.K3 ∈ scrollTable.labels ∧ s.runsAt .scroll .K3 ∧
      s.env.nextAnswer = .ok ∧ labelAction s .K3 = some .testEnd ∧ scrolledOut s.ctrl = false := by decide

theorem witness_OpenAndBindStepOutcomes :
    (runningAt (fresh 1) .openDev .O1).runsAt .openDev .O1 ∧ (runningAt (fresh 1) .run .O1).runsAt .run .O1 ∧
    (runningAt (openedOnly 1) .bindDev .O2).runsAt .bindDev .O2 ∧ (runningAt (openedOnly 1) .run .O2).runsAt .run .O2 ∧
    (runningAt (fresh 1) .openDev .O1).env.nextAnswer = .ok ∧
    (answering (runningAt (fresh 0) .run .O1) .err).env.nextAnswer = .err ∧
    (answering (runningAt (fresh 0) .run .O1) .err).runsAt .run .O1 ∧
    (answering (runningAt (openedOnly 0) .run .O2) .err).env.nextAnswer = .err ∧
    (answering (runningAt (openedOnly 0) .run .O2) .err).runsAt .run .O2 := by decide

theorem witness_OpenAndBindComplete :
    (fresh 1).answersOk 1 ∧ (fresh 1).admits .openDev ∧ (openedOnly 1).answersOk 1 ∧ (openedOnly 1).admits .bindDev := by
  decide

theorem witness_BankSelectsComplete :
    (ready 1).answersOk 1 ∧
    ∀ i ∈ [Instr.selectBank 0xFF, .writeReg (ready 1).params.bankRegister 0xFF,
        .writeBlock (ready 1).params.bankRegister [0xFF]], (ready 1).admits i := by decide

/-- A one-byte register write and a block that ends at the last colour byte. -/
theorem witness_RegisterWritesComplete :
    let s := withBank (ready 1) 0x01
    wellFormedParams s.params = true ∧ s.answersOk 1 ∧ s.dev.banksel = some 0x01 ∧
      s.admits (.writeReg 0x11 0xFF) ∧ (0x11 : Byte) ≠ s.params.bankRegister ∧
      (target s.params 0x01 ((0x11 : Byte).toNat + 0)).isSome = true ∧
      s.admits (.writeBlock 0xB2 [0x01, 0x02]) ∧ (0xB2 : Byte) ≠ s.params.bankRegister ∧
      ∀ k < ([0x01, 0x02] : List Byte).length, (target s.params 0x01 ((0xB2 : Byte).toNat + k)).isSome = true := by decide

/-- Its three clauses: a config register, an address that is none, and the bank register. -/
theorem witness_WriteConfigCompletes :
    let s := ready 2
    wellFormedParams s.params = true ∧ s.answersOk 2 ∧
      (s.admits (.writeConfig 0x0A 0x00) ∧ (0x0A : Byte) ≠ s.params.bankRegister ∧
        target s.params s.params.configBank (0x0A : Byte).toNat = some .shutdown) ∧
      (s.admits (.writeConfig 0x0B 0x00) ∧ (0x0B : Byte) ≠ s.params.bankRegister ∧
        target s.params s.params.configBank (0x0B : Byte).toNat = none) ∧
      (s.admits (.writeConfig 0xFD 0x00) ∧ (0xFD : Byte) = s.params.bankRegister) := by decide

theorem witness_ResetSeqCompletes :
    wellFormedParams (ready 4).params = true ∧ (ready 4).answersOk 4 ∧ (ready 4).admits .resetSeq := by decide

theorem witness_ConfigureSeqCompletes :
    wellFormedParams (ready 6).params = true ∧ (ready 6).answersOk 6 ∧ (ready 6).admits .configureSeq := by decide

theorem witness_EnableSeqCompletes :
    wellFormedParams (ready 4).params = true ∧ (ready 4).answersOk 4 ∧ (ready 4).admits .enableSeq := by decide

theorem witness_SetupConfiguresDevice :
    wellFormedParams (ready 14).params = true ∧ (ready 14).answersOk 14 ∧ (ready 14).admits .setup := by decide

theorem witness_SetupIsIdempotent :
    wellFormedParams (ready 28).params = true ∧ (ready 28).answersOk 28 ∧ (ready 28).admits .setup := by decide

theorem witness_MapFillsBuffer :
    (fresh 0).admits .map ∧ (∀ x < 17, ∀ y < 7, idx x y ≠ 135) ∧ idx 0 0 = 134 := by decide +kernel

theorem witness_SinglePixelMapsToOneByte :
    (0xFF : Byte) ≠ 0x00 ∧
    ∀ x' < 17, ∀ y' < 7, frameCell [(118, (0xFF : Byte))] x' y' = if x' = 16 ∧ y' = 6 then 0xFF else 0x00 := by
  decide +kernel

theorem witness_PresentCompletes :
    wellFormedParams (ready 4).params = true ∧ (ready 4).answersOk 4 ∧ (ready 4).admits .present := by decide

theorem witness_LoadedFrameIsDisplayed :
    wellFormedParams (ready 18).params = true ∧ (ready 18).answersOk 18 ∧ (ready 18).admits .setup ∧
    (List.replicate 119 (0x7F : Byte)).length = 119 := by decide

theorem witness_UnenabledBankIsDark :
    let s := { fresh 0 with dev := { Dev.powerOn with
      mode := some 0x00, frame := some 0x01, audioSync := some 0x00, shutdown := some 0x01 } }
    displayedBank s = some 1 ∧ ∀ j < s.params.enableRegCount, s.dev.enableByte 1 j = some 0x00 := by decide

theorem witness_ScrollInitCompletes : (fresh 0).admits .scrollInit := by decide

/-! #### The invariants, of a state in the middle of a scroll -/

theorem midScroll_canonical : CanonicalMemories midScroll where
  lframe_wf := by decide
  pbuf_wf := by decide
  en_wf := by decide
  col_wf := by decide
  lframe_keys := by decide
  pbuf_keys := by decide
  en_keys := by decide
  col_keys := by decide

theorem midScroll_consistent : ControlConsistent midScroll where
  busy_iff_step := by decide
  step_of_command := by
    intro l h
    cases h
    exact ⟨.scroll, scrollTable, rfl, rfl, by decide⟩
  exit_of_phase := rfl
  no_cause := by decide
  cause_of_failure := by intro h; cases h
  opened_of_bound := by decide
  bound_of_ready := by decide
  opened_at_bind := by decide
  bound_at_step := fun _ _ _ _ _ => rfl
  busy_of_hung := by decide

theorem midScroll_bank : BankSelected midScroll := by
  intro l b h1 h2
  cases h1
  cases h2
  decide

theorem midScroll_range : ScrollInRange midScroll where
  text_fits := by decide
  textw_nonneg := by decide
  textw_le := by decide
  offset_le := by decide
  offset_ge := by decide
  offset_between_ticks := by decide

/-- At the lowest offset a tick can start from. -/
theorem lastTick_range : ScrollInRange lastTick where
  text_fits := by decide
  textw_nonneg := by decide
  textw_le := by decide
  offset_le := by decide
  offset_ge := by decide
  offset_between_ticks := by decide

theorem midScroll_steps : ∃ w, step midScroll = .next w := exists_next (by decide +kernel)

theorem witness_CanonicalMemoriesKept : CanonicalMemories midScroll ∧ ∃ w, step midScroll = .next w :=
  ⟨midScroll_canonical, midScroll_steps⟩

theorem witness_ControlConsistentKept : ControlConsistent midScroll ∧ ∃ w, step midScroll = .next w :=
  ⟨midScroll_consistent, midScroll_steps⟩

theorem witness_BankSelectedKept :
    ControlConsistent midScroll ∧ BankSelected midScroll ∧ (∀ evs, midScroll.env.sched ≠ .deviceReset :: evs) ∧
      ∃ w, step midScroll = .next w :=
  ⟨midScroll_consistent, midScroll_bank, fun _ => by simp [midScroll, runningAt, ready, fresh, State.reset, Env.start], midScroll_steps⟩

theorem witness_ScrollInRangeKept :
    ControlConsistent midScroll ∧ ScrollInRange midScroll ∧ ∃ w, step midScroll = .next w :=
  ⟨midScroll_consistent, midScroll_range, midScroll_steps⟩

theorem witness_SequencesNeverFault :
    wellFormedParams midScroll.params = true ∧ BankSelected midScroll ∧ commandTable .scroll = some scrollTable ∧
      Label.U3 ∈ scrollTable.labels ∧ midScroll.runsAt .scroll .U3 ∧ Label.U3 ≠ .W1 ∧ Label.U3 ≠ .C2 :=
  ⟨by decide, midScroll_bank, rfl, by decide, by decide, by decide, by decide⟩

/-- A step with an empty schedule answers a next state of which `p` holds. -/
abbrev stepsTo (s : State) (p : State → Bool) : Prop := s.env.sched = [] ∧ nextHas (step s) p = true

/-- Each clause's premise: acceptance, a command's end, a failure, K3's end, and each label that writes a register. -/
theorem witness_ControlRegisterWriters :
    (∀ evs, ([] : List EnvEvent) ≠ .blockReset :: evs) ∧
    stepsTo (offered (ready 0) [0x20] []) (fun w =>
      w.ctrl.cmd != (ready 0).ctrl.cmd && w.ctrl.phase == .busy && w.ctrl.ready != 1) ∧
    stepsTo (runningAt (ready 1) .present .U6) (fun w => w.ctrl.phase == .idle && w.ctrl.active != 0) ∧
    stepsTo (answering (runningAt (ready 0) .present .U4) .err) (fun w =>
      w.ctrl.cause != 0 && w.ctrl.exit != none && w.ctrl.phase == .failed) ∧
    stepsTo { lastTick with ctrl := { lastTick.ctrl with seqPc := some .K3, offset := -25 } } (fun w =>
      w.ctrl.phase == .done && w.ctrl.exit != none) ∧
    stepsTo (runningAt (fresh 1) .openDev .O1) (fun w => w.ctrl.opened != 0) ∧
    stepsTo (runningAt (openedOnly 1) .bindDev .O2) (fun w => w.ctrl.bound != 0) ∧
    stepsTo (runningAt (fresh 0) .setup .S16) (fun w => w.ctrl.ready != 0) ∧
    stepsTo lastTick (fun w => w.ctrl.offset != lastTick.ctrl.offset) ∧
    stepsTo { midScroll with ctrl := { midScroll.ctrl with seqPc := some .I1 } } (fun w => w.ctrl.textw != 7) ∧
    stepsTo (runningAt { fresh 0 with ctrl := { Ctrl.reset with lframe := [(0, 0x80)] } } .map .M1)
      (fun w => w.ctrl.seqPc == none && w.ctrl.pbuf != []) ∧
    stepsTo (offered (ready 0) (0x30 :: List.replicate 119 0xFF) []) (fun w => w.ctrl.lframe != []) := by
  refine ⟨by simp, ?_⟩
  decide +kernel

theorem witness_ControlIgnoresDevice :
    (∃ w, step midScroll = .next w) ∧
      ∃ w, step { midScroll with dev := { midScroll.dev with banksel := some 0x01 }, settlePending := true } = .next w :=
  ⟨midScroll_steps, exists_next (by decide +kernel)⟩

theorem witness_OneOutputPerStep : ControlConsistent midScroll ∧ ∃ w, step midScroll = .next w :=
  ⟨midScroll_consistent, midScroll_steps⟩

/-! #### The scroll -/

/-- A tick that does not terminate, and the terminating one. -/
theorem witness_TickRendersAndTests :
    (ScrollInRange lastTick ∧ lastTick.runsAt .scroll .K1 ∧
      lastTick.ctrl.offset.toInt - 1 + 17 + textWidth lastTick.params < (0 : Int)) ∧
    (let s := { midScroll with ctrl := { midScroll.ctrl with seqPc := some .K1 } };
      s.runsAt .scroll .K1 ∧ (0 : Int) ≤ s.ctrl.offset.toInt - 1 + 17 + textWidth s.params) :=
  ⟨⟨lastTick_range, by decide, by decide⟩, by decide⟩

/-- The last tick that writes a frame: `OFFSET` -23 before it. -/
def beforeLastFrame : State :=
  { ready 4 with params := hiParams, ctrl := { (ready 4).ctrl with offset := -23, textw := 7 } }

theorem witness_TickWritesFrame :
    wellFormedParams beforeLastFrame.params = true ∧ ScrollInRange beforeLastFrame ∧ beforeLastFrame.answersOk 4 ∧
      beforeLastFrame.admits .tick ∧ 0 ≤ beforeLastFrame.ctrl.offset.toInt - 1 + 17 + textWidth beforeLastFrame.params :=
  ⟨by decide, ⟨by decide, by decide, by decide, by decide, by decide, by decide⟩, by decide, by decide, by decide⟩

theorem witness_ScrollAlternatesBanks :
    let s := { runningAt (ready 96) .scroll .I1 with params := hiParams }
    wellFormedParams s.params = true ∧ s.runsAt .scroll .I1 ∧ 24 ≤ 17 + textWidth s.params ∧ s.answersOk (4 * 24) := by
  decide +kernel

theorem witness_ScrollEndsAtTick18PlusW :
    let s := { runningAt (ready 96) .run .I1 with params := hiParams }
    wellFormedParams s.params = true ∧ s.runsAt .run .I1 ∧ s.answersOk (4 * (17 + textWidth s.params)) := by
  decide +kernel

theorem witness_RunScrollsWholeText :
    let s := { fresh 112 with params := hiParams }
    wellFormedParams s.params = true ∧ s.admits .run ∧ s.answersOk (16 + 4 * (17 + textWidth s.params)) := by
  decide +kernel

/-- Columns left and right of the text, at the boundary: the text's columns are 5 to 11. -/
theorem witness_RenderWidthAndColumns :
    ((4 : Nat) : Int) < 5 ∧ (5 : Int) + textWidth hiParams ≤ ((12 : Nat) : Int) := by decide

theorem witness_GlyphStaysInItsColumns :
    ((4 : Nat) : Int) < 5 ∧ (5 : Int) + (drawGlyph hiParams [] 5 'H').2 ≤ ((10 : Nat) : Int) := by decide +kernel

/-! #### The step -/

/-- Its three clauses, with an empty schedule and with one that lets the block move. -/
theorem witness_StepRunsDecodedCommand :
    wellFormedParams (ready 0).params = true ∧
    (midScroll.env.sched = [] ∧ midScroll.ctrl.phase = .busy ∧ midScroll.ctrl.cmd = some .scroll) ∧
    ((offered (ready 0) [0x31] [.proceed]).env.sched = [.proceed] ∧ (ready 0).ctrl.phase ≠ .busy) ∧
    (fresh 0).env.stream = [] := by decide

theorem witness_StepRunsDecodedCommand_decodes :
    decode (offered (ready 0) [0x31] [.proceed]).env.stream = .ok (.map, []) := rfl

/-- Its clauses: while another command executes, in `IDLE`, and with a stream that ends inside a command. -/
theorem witness_AttemptedCommand :
    (offered midScroll [0x41] [.attempt]).env.sched = [.attempt] ∧ (offered midScroll [0x41] [.attempt]).ctrl.phase = .busy ∧
    (offered (ready 0) [0x41] [.attempt]).ctrl.phase = .idle ∧ wellFormedParams midScroll.params = true := by decide

theorem witness_AttemptedCommand_decodes :
    decode (offered midScroll [0x41] [.attempt]).env.stream = .ok (.tick, []) ∧
    decode (offered (ready 0) [0x12] [.attempt]).env.stream = .error .truncated := ⟨rfl, rfl⟩

/-- Each clause of R9 is broken by one of the sets of `test_ill_formed_params`; here (a), (d) and (f) at the boundary. -/
theorem witness_IllFormedParametersAreRefused :
    0xFF < (0x71 : Byte).toNat + 144 - 1 ∧ ¬[(0x00 : Byte), 0x00, 0x06, 0x0A].Nodup ∧ 16 < 17 := by decide

theorem witness_BlockResetRestoresControl :
    wellFormedParams midScroll.params = true ∧ (offered midScroll [] [.blockReset]).env.sched = [.blockReset] := by decide

/-- Outside a call, and while `open` hangs. -/
theorem witness_DeviceResetPowersOn :
    wellFormedParams midScroll.params = true ∧ (offered midScroll [] [.deviceReset]).env.sched = [.deviceReset] ∧
    midScroll.env.hung = false ∧ (runningAt (fresh 0) .openDev .O1).hang.ctrl.seqPc = some .O1 := by decide

end Sys2Proof.Tests
end

section
/-! SUPPORT. Ill-formed parameter sets (00_scope.md R9), the parameters along a step (R20), the width of the rendered text
(43_scroll_sequencer.md R182, R183), and the range in which the scroll's s32 arithmetic does not wrap (R10, R11, R189,
R190). -/

namespace Sys2Proof.Machine

open Sys2Proof.Config

variable {s u w : State} {i : Instr} {l : Label} {t : Table} {nxt : Option Label} {act : Action}

/-! ### Ill-formed parameters -/

theorem step_of_ill_formed (h : wellFormedParams s.params = false) : step s = .refused .illFormedParameters := by
  simp [step, checkedEvent, h]

/-- Settles O49: each clause of R9, if broken, contradicts a field of `ParamFacts`. -/
theorem illFormedParametersAreRefused : Obligations.IllFormedParametersAreRefused := by
  rintro s c rfl broken
  refine step_of_ill_formed (Bool.eq_false_iff.2 fun wf => ?_)
  have facts := paramFacts wf
  rcases broken with h | h | ⟨n, h⟩ | h | h | h | h | h | h | h
  · have := facts.color_fits; omega
  · have := facts.enable_fits; omega
  · have := facts.disjoint; omega
  · exact absurd (inEnableArea_iff.2 h) (by simp [facts.bank_not_enable])
  · exact absurd (inColorArea_iff.2 h) (by simp [facts.bank_not_color])
  · simp [facts.bank_ne_mode, facts.bank_ne_frame, facts.bank_ne_audio, facts.bank_ne_shutdown] at h
  · simp [facts.mode_ne_frame, facts.mode_ne_audio, facts.mode_ne_shutdown, facts.frame_ne_audio,
      facts.frame_ne_shutdown, facts.audio_ne_shutdown] at h
  · exact facts.config_ne_zero h
  · exact facts.config_ne_one h
  · have := facts.mask_fits; omega

/-! ### No step writes the parameters -/

@[simp] theorem State.raiseTransfer_offset : (s.raiseTransfer l).ctrl.offset = s.ctrl.offset := by
  unfold State.raiseTransfer; split <;> rfl
@[simp] theorem State.raiseTransfer_textw : (s.raiseTransfer l).ctrl.textw = s.ctrl.textw := by
  unfold State.raiseTransfer; split <;> rfl
@[simp] theorem State.raiseTransfer_params : (s.raiseTransfer l).params = s.params := by
  unfold State.raiseTransfer; split <;> rfl

@[simp] theorem havocTransfer_ctrl {a : Byte} {p : List Byte} : (havocTransfer a p s).ctrl = s.ctrl :=
  storeTransfer_ctrl
@[simp] theorem havocTransfer_params {a : Byte} {p : List Byte} : (havocTransfer a p s).params = s.params :=
  storeTransfer_params

@[simp] theorem State.acceptedBy_params : (s.acceptedBy i).params = s.params := by cases i <;> rfl

theorem localEffect_params (h : localEffect s act = some u) : u.params = s.params := by
  cases act <;> cases h <;> rfl

theorem Performed.params_eq (h : Performed l act nxt s w) : w.params = s.params := by
  cases h with
  | localStep h => simpa using localEffect_params h
  | _ => simp

theorem exec_params (h : exec i s = .next w) : w.params = s.params := by
  cases hi : isHostCommand i with
  | false => obtain ⟨a, p, -, -, rfl⟩ := exec_wire_next hi h; simp
  | true =>
    rcases exec_next hi h with h | ⟨-, rfl⟩
    · cases h with
      | step _ _ _ _ _ _ hp => exact hp.params_eq
      | _ => simp
    · rfl

theorem Stepped.params_eq (h : Stepped s w) : w.params = s.params := by
  cases h with
  | blockReset => rfl
  | deviceReset => unfold State.deviceReset; split <;> rfl
  | quiet hs => exact hs.params
  | refused hs => exact hs.params
  | executed hs _ _ _ h => exact (exec_params h).trans hs.params
  | continued hs _ _ h => exact (exec_params h).trans hs.params

/-- A step resets CTRL, or does to it what `CtrlStep` lists. -/
theorem Stepped.ctrl_cases (h : Stepped s w) : w.ctrl = Ctrl.reset ∨ CtrlStep s w := by
  cases h with
  | blockReset => exact .inl rfl
  | deviceReset h => exact .inr (ctrlStep_of_stepped (.deviceReset h) (by simp [h]))
  | quiet hs => exact .inr (.same hs.ctrl)
  | refused hs => exact .inr (.same hs.ctrl)
  | executed hs hi hb hd h => exact .inr (ctrlStep_of_executed hs hi hb hd h)
  | continued hs hb hc h => exact .inr (ctrlStep_of_continued hs hb hc h)

/-! ### The width of the rendered text -/

/-- The cursor ends behind the glyphs left and one spacing column before each, but for the text's first glyph (R182). -/
theorem renderText_cursor {c : Params} {text : List Char} {first : Bool} {f : ByteMemory} {x : Int} :
    (renderText c text first f x).2 =
      x + (text.map (advanceWidth c)).sum + (if first then text.length - 1 else text.length : Nat) := by
  induction text generalizing first f x with
  | nil => simp [renderText]
  | cons ch text ih => cases first <;> simp [renderText, ih, drawGlyph] <;> omega

/-- `render` reports R183's width, wherever the text starts. -/
theorem render_width {c : Params} {o : Int} : (render c o).2 = textWidth c := by
  simp only [render, renderText_cursor, textWidth, if_true]
  omega

/-! ### What a micro-step does to OFFSET and TEXTW -/

/-- The action writes `OFFSET` or `TEXTW`: I1, K1 and K2. -/
def Action.writesScroll : Action → Bool
  | .initScroll | .stepOffset | .renderFrame => true
  | .xfer _ _ | .wait _ | .openNode | .bindAddress | .markReady | .mapBuffer | .toggleActive | .testEnd => false

theorem Performed.scroll_frame (h : Performed l act nxt s w) (ha : act.writesScroll = false) :
    w.ctrl.offset = s.ctrl.offset ∧ w.ctrl.textw = s.ctrl.textw := by
  cases h with
  | localStep h => cases act <;> cases h <;> cases ha <;> simp
  | _ => simp

/-- An action without a transport call has one result. -/
theorem Performed.of_local (h : Performed l act nxt s w) (hu : localEffect s act = some u) (hk : act ≠ .testEnd) :
    w = u.goto nxt := by
  cases h with
  | hang h => cases act <;> cases hu <;> cases h
  | localStep h => rw [hu] at h; cases h; rfl
  | finish h => exact absurd h hk
  | stored h | failed h | opened h | openFailed h | bound h | bindFailed h => subst h; cases hu

/-- The termination test goes on, or ends the scroll (R189). -/
theorem Performed.of_testEnd (h : Performed l .testEnd nxt s w) :
    (scrolledOut s.ctrl = false ∧ w = s.goto nxt) ∨ w = s.finish := by
  cases h with
  | localStep h hk => cases h; exact .inl ⟨hk rfl, rfl⟩
  | finish => exact .inr rfl
  | hang h | stored h | failed h | opened h | openFailed h | bound h | bindFailed h => cases h

/-! ### The range -/

/-- K1's subtraction on s32 does not wrap above the least value (R11, R189). -/
theorem toInt_sub_one {o : S32} (h : -(2 ^ 31) < o.toInt) : (o - 1).toInt = o.toInt - 1 := by
  have := BitVec.toInt_lt (x := o)
  rw [BitVec.toInt_sub, show (1 : S32).toInt = 1 from rfl, Int.bmod_eq_of_le] <;> omega

/-- A text width of R10's range fits s32. -/
theorem toInt_ofInt_of_textFits {c : Params} (h : textFits c = true) :
    (BitVec.ofInt 32 (textWidth c)).toInt = textWidth c := by
  have : textWidth c ≤ 2 ^ 31 - 19 := by simpa [textFits] using h
  rw [BitVec.toInt_ofInt, Int.bmod_eq_of_le] <;> omega

theorem ScrollInRange.text_le (h : ScrollInRange s) : textWidth s.params ≤ 2 ^ 31 - 19 := by
  simpa [textFits] using h.text_fits

/-- In range, the termination test of R190 is the one on Int. -/
theorem ScrollInRange.scrolledOut_iff (h : ScrollInRange s) :
    scrolledOut s.ctrl = true ↔ s.ctrl.offset.toInt + 17 + s.ctrl.textw.toInt < 0 := by
  have hw := h.text_le
  obtain ⟨-, ht0, ht, ho, hge, -⟩ := h
  have inner : (s.ctrl.offset + windowWidth).toInt = s.ctrl.offset.toInt + 17 := by
    rw [BitVec.toInt_add, show windowWidth.toInt = 17 from rfl, Int.bmod_eq_of_le] <;> omega
  have outer : (s.ctrl.offset + windowWidth + s.ctrl.textw).toInt = s.ctrl.offset.toInt + 17 + s.ctrl.textw.toInt := by
    rw [BitVec.toInt_add, inner, Int.bmod_eq_of_le] <;> omega
  rw [scrolledOut, BitVec.slt_iff_toInt_lt, outer, show (0 : S32).toInt = 0 from rfl]

/-- The lower bound on `OFFSET` between ticks holds at every label but K2 and K3, so it carries over to any next label. -/
theorem ScrollInRange.of_frame (h : ScrollInRange s) (hp : w.params = s.params)
    (ho : w.ctrl.offset = s.ctrl.offset) (ht : w.ctrl.textw = s.ctrl.textw)
    (hd : s.ctrl.phase ≠ .done) (h2 : s.ctrl.seqPc ≠ some .K2) (h3 : s.ctrl.seqPc ≠ some .K3) : ScrollInRange w where
  text_fits := hp ▸ h.text_fits
  textw_nonneg := ht ▸ h.textw_nonneg
  textw_le := hp ▸ ht ▸ h.textw_le
  offset_le := ho ▸ h.offset_le
  offset_ge := hp ▸ ho ▸ h.offset_ge
  offset_between_ticks := fun _ _ _ => hp ▸ ho ▸ h.offset_between_ticks hd h2 h3

theorem ScrollInRange.of_ctrl_eq (h : ScrollInRange s) (hc : w.ctrl = s.ctrl) (hp : w.params = s.params) :
    ScrollInRange w where
  text_fits := hp ▸ h.text_fits
  textw_nonneg := hc ▸ h.textw_nonneg
  textw_le := hp ▸ hc ▸ h.textw_le
  offset_le := hc ▸ h.offset_le
  offset_ge := hp ▸ hc ▸ h.offset_ge
  offset_between_ticks := hp ▸ hc ▸ h.offset_between_ticks

/-- The start of a scroll, after I1 or a block reset (R181, R240). -/
theorem ScrollInRange.of_zero (hp : textFits w.params = true) (ho : w.ctrl.offset = 0) (ht : w.ctrl.textw = 0) :
    ScrollInRange w := by
  have hz : (0 : S32).toInt = 0 := rfl
  refine ⟨hp, ?_, ?_, ?_, ?_, fun _ _ _ => ?_⟩ <;> simp only [ho, ht, hz] <;> omega

/-- K1 steps `OFFSET` down by one, from between ticks to K2. -/
theorem ScrollInRange.stepOffset (h : ScrollInRange s) (hd : s.ctrl.phase ≠ .done) (hl : s.ctrl.seqPc = some .K1) :
    ScrollInRange (s.stepOffset.goto (some .K2)) := by
  have hw := h.text_le
  have hb := h.offset_between_ticks hd (by simp [hl]) (by simp [hl])
  have hle := h.offset_le
  have ho := toInt_sub_one (o := s.ctrl.offset) (by omega)
  refine ⟨h.text_fits, h.textw_nonneg, h.textw_le, ?_, ?_, fun _ h2 => absurd rfl h2⟩
  · simp only [State.goto_offset, State.stepOffset_offset, ho]; omega
  · simp only [State.goto_offset, State.stepOffset_offset, State.goto_params, State.stepOffset_params, ho]; omega

/-- K2 sets `TEXTW` to the text's width and leaves `OFFSET`. -/
theorem ScrollInRange.renderFrame (h : ScrollInRange s) : ScrollInRange (s.renderFrame.goto (some .K3)) := by
  have ht : (s.renderFrame.goto (some .K3)).ctrl.textw.toInt = textWidth s.params := by
    rw [State.goto_textw, State.renderFrame_textw, render_width, toInt_ofInt_of_textFits h.text_fits]
  exact ⟨h.text_fits, ht ▸ Int.natCast_nonneg _, ht.le, h.offset_le, h.offset_ge, fun _ _ h3 => absurd rfl h3⟩

/-- K3 goes on only while the text is in the window: `OFFSET + 17 + TEXTW >= 0` is the bound between ticks. -/
theorem ScrollInRange.goOn (h : ScrollInRange s) (hk : scrolledOut s.ctrl = false) : ScrollInRange (s.goto nxt) := by
  have hn : ¬ s.ctrl.offset.toInt + 17 + s.ctrl.textw.toInt < 0 := by rw [← h.scrolledOut_iff, hk]; simp
  have htw := h.textw_le
  refine ⟨?_, ?_, ?_, ?_, ?_, fun _ _ _ => ?_⟩ <;> simp only [State.goto_offset, State.goto_textw, State.goto_params]
  exacts [h.text_fits, h.textw_nonneg, htw, h.offset_le, h.offset_ge, by omega]

theorem ScrollInRange.finish (h : ScrollInRange s) : ScrollInRange s.finish :=
  ⟨h.text_fits, h.textw_nonneg, h.textw_le, h.offset_le, h.offset_ge, fun hd => absurd rfl hd⟩

/-- A micro-step keeps the range: I1, K1, K2 and K3 one by one, every other label as a frame. -/
theorem ScrollInRange.performed (h : ScrollInRange s) (hb : s.ctrl.phase = .busy) (hl : s.ctrl.seqPc = some l)
    (ht : commandTable i = some t) (hn : t.after l = some nxt) (ha : labelAction s l = some act)
    (hp : Performed l act nxt s w) : ScrollInRange w := by
  have hnxt : nextLabel i l = nxt := by
    rw [table_after ht (Table.after_mem hn)] at hn
    exact Option.some.inj hn
  have hd : s.ctrl.phase ≠ .done := by simp [hb]
  have frame : act.writesScroll = false → l ≠ .K2 → l ≠ .K3 → ScrollInRange w := fun hw h2 h3 =>
    have ⟨ho, htw⟩ := hp.scroll_frame hw
    h.of_frame hp.params_eq ho htw hd (by simpa [hl] using h2) (by simpa [hl] using h3)
  cases l with
  | I1 =>
    cases ha
    rw [hp.of_local rfl (by simp)]
    exact .of_zero (by simpa using h.text_fits) (by simp) (by simp)
  | K1 =>
    cases ha; cases hnxt
    rw [hp.of_local rfl (by simp)]
    exact h.stepOffset hd hl
  | K2 =>
    cases ha; cases hnxt
    rw [hp.of_local rfl (by simp)]
    exact h.renderFrame
  | K3 =>
    cases ha
    rcases hp.of_testEnd with ⟨hk, rfl⟩ | rfl
    · exact h.goOn hk
    · exact h.finish
  | W1 | C2 =>
    obtain ⟨b, -, rfl⟩ := Option.map_eq_some_iff.1 ha
    exact frame rfl (by simp) (by simp)
  | _ =>
    cases ha
    exact frame rfl (by simp) (by simp)

/-- From an idle block the range carries over to whatever command is accepted: it stands at no label (R23, R24). -/
theorem ScrollInRange.of_idle (h : ScrollInRange s) (hc : ControlConsistent s) (hi : s.ctrl.phase = .idle)
    (hp : w.params = s.params) (ho : w.ctrl.offset = s.ctrl.offset) (ht : w.ctrl.textw = s.ctrl.textw) :
    ScrollInRange w := by
  have hl : s.ctrl.seqPc = none := by
    by_contra hl
    simpa [hi] using hc.busy_iff_step.2 hl
  exact h.of_frame hp ho ht (by simp [hi]) (by simp [hl]) (by simp [hl])

/-- Settles O56, over the ways a step changes CTRL. -/
theorem scrollInRangeKept : Obligations.ScrollInRangeKept := by
  intro s w hc h hstep
  have stepped := (step_next hstep).2
  have hp := stepped.params_eq
  rcases stepped.ctrl_cases with reset | hctrl
  · exact .of_zero (hp ▸ h.text_fits) (by rw [reset]; rfl) (by rw [reset]; rfl)
  · cases hctrl with
    | same heq => exact h.of_ctrl_eq heq hp
    | loaded had heq => exact h.of_idle hc had.idle hp (by rw [heq]) (by rw [heq])
    | accepted hacc heq => exact h.of_idle hc hacc.idle hp (by rw [heq]) (by rw [heq])
    | performed hu hb _ ht hl hn ha hperf =>
      have hru : ScrollInRange _ := h.of_ctrl_eq hu.ctrl hu.params
      exact hru.performed (hu.ctrl ▸ hb) (hu.ctrl ▸ hl) ht hn ha hperf

end Sys2Proof.Machine
end

section
/-! SUPPORT. CTRL's status registers agree with each other after every step (10_state.md R23, R24, R26, R32, R33;
60_exceptions.md R211, R219). -/

namespace Sys2Proof.Machine

open Sys2Proof.Config

variable {s u w : State} {i : Instr} {l m : Label} {t : Table} {nxt : Option Label} {act : Action}

/-! ### Commands that are issued, and commands that go on -/

theorem not_executing (hb : s.ctrl.phase ≠ .busy) : s.executing i = false :=
  Bool.eq_false_iff.2 fun he => hb (executing_iff.1 he).1

/-- A command the host issues is refused, or is accepted once it passes R222's checks. -/
theorem exec_issued_next (hi : isHostCommand i = true) (he : s.executing i = false) (h : exec i s = .next w) :
    (∃ r, w = s.refuse r) ∨ (firstFailing i s.ctrl = none ∧ w = s.acceptedBy i) := by
  rw [exec_issued hi he, firstRefusal_ownChecks hi] at h
  cases hr : firstFailing i s.ctrl with
  | some r => rw [hr] at h; exact .inl ⟨r, (Host.Outcome.next.inj h).symm⟩
  | none => rw [hr] at h; exact .inr ⟨rfl, (Host.Outcome.next.inj h).symm⟩

/-- A busy block executes a command that has micro-steps. -/
theorem ControlConsistent.table_of_busy (h : ControlConsistent s) (hb : s.ctrl.phase = .busy)
    (hc : s.ctrl.cmd = some i) : ∃ t, commandTable i = some t := by
  obtain ⟨l, hl⟩ := Option.ne_none_iff_exists'.1 (h.busy_iff_step.1 hb)
  obtain ⟨j, t, hj, ht, -⟩ := h.step_of_command l hl
  exact ⟨t, Option.some.inj (hc.symm.trans hj) ▸ ht⟩

/-! ### The sequences' labels -/

/-- A sequence that loops goes back to one of its labels. -/
theorem loopTo_mem (ht : commandTable i = some t) (hm : t.loopTo = some m) : m ∈ t.labels := by
  cases i <;> cases ht <;> cases hm <;> decide

/-- A sequence stays among the labels of its command. -/
theorem nextLabel_mem (ht : commandTable i = some t) (hl : l ∈ t.labels) (hm : nextLabel i l = some m) :
    m ∈ t.labels := by
  have hn := table_after ht hl
  rw [hm] at hn
  exact (successor_next_mem hn).elim id (loopTo_mem ht)

/-- Only O1 goes to O2. -/
theorem eq_O1_of_nextLabel (h : nextLabel i l = some .O2) : l = .O1 := by
  cases l <;> first | rfl | (simp [nextLabel] at h)

/-- A step that needs a bound transport follows O2, or another such step. -/
theorem needsHandle_of_next (hm : nextLabel i l = some m) (hn : needsHandle i m = true) :
    l = .O2 ∨ needsHandle i l = true := by
  cases l <;> simp_all [nextLabel, needsHandle]

/-- The labels at which the tables name an action. -/
def Action.labels : Action → List Label
  | .xfer _ _ =>
    [.W1, .C1, .C2, .S1, .S2, .S4, .S5, .S6, .S7, .S8, .S9, .S10, .S11, .S12, .S13, .S14, .S15, .U2, .U3, .U4, .U5]
  | .wait _ => [.S3, .K4]
  | .openNode => [.O1]
  | .bindAddress => [.O2]
  | .markReady => [.S16]
  | .mapBuffer => [.M1, .U1]
  | .initScroll => [.I1]
  | .toggleActive => [.U6]
  | .stepOffset => [.K1]
  | .renderFrame => [.K2]
  | .testEnd => [.K3]

theorem mem_labels (ha : labelAction s l = some act) : l ∈ act.labels := by
  cases l with
  | W1 | C2 => obtain ⟨b, -, rfl⟩ := Option.map_eq_some_iff.1 ha; simp [Action.labels, Action.send]
  | _ => cases ha; simp [Action.labels, Action.send]

/-- The steps of the four setup commands are setup steps, but for S16 (R130, R144). -/
theorem setupStep_of_setupCommand (hc : isSetupCommand (some i) = true) (ht : commandTable i = some t)
    (hl : l ∈ t.labels) : isSetupStep l = true ∨ l = .S16 := by
  have hi : i = .resetSeq ∨ i = .configureSeq ∨ i = .enableSeq ∨ i = .setup := by
    simpa [isSetupCommand, or_assoc] using hc
  rcases hi with rfl | rfl | rfl | rfl <;> cases ht <;> revert l <;> decide

/-- A failed transfer raises the error of R211's table: `SetupError` in a setup step, else `TransportError`. -/
theorem raiseTransfer_eq (hc : s.ctrl.cmd = some i) (ht : commandTable i = some t) (hl : l ∈ t.labels)
    {a : Byte} {p : List Byte} (ha : labelAction u l = some (.xfer a p)) :
    ∃ c n, causeAt l = some (c, n) ∧ s.raiseTransfer l = s.raise c n l := by
  have h16 : l ≠ .S16 := by rintro rfl; cases ha
  have hs : (isSetupCommand s.ctrl.cmd || isSetupStep l) = isSetupStep l := by
    rw [hc, Bool.or_eq_right_iff_imp]
    exact fun h => (setupStep_of_setupCommand h ht hl).resolve_right h16
  unfold State.raiseTransfer
  rw [hs]
  cases l <;> first | (cases ha; done) | exact ⟨_, _, rfl, rfl⟩

/-! ### The invariant along the operations -/

/-- The invariant reads CTRL, the parameters and whether a call is outstanding. -/
theorem ControlConsistent.of_eq (h : ControlConsistent s) (hc : w.ctrl = s.ctrl) (hp : w.params = s.params)
    (hh : w.env.hung = s.env.hung) : ControlConsistent w := by
  obtain ⟨h1, h2, h3, h4, h5, h6, h7, h8, h9, h10⟩ := h
  constructor <;> simp only [hc, hp, hh] <;> assumption

theorem ControlConsistent.blockReset : ControlConsistent s.blockReset := by
  constructor <;> simp [State.blockReset, Ctrl.reset]

/-- An idle block stands at no label, and no call is outstanding. -/
theorem ControlConsistent.of_idle (h : ControlConsistent s) (hi : s.ctrl.phase = .idle) :
    s.ctrl.seqPc = none ∧ s.env.hung = false := by
  have hb : s.ctrl.phase ≠ .busy := by simp [hi]
  exact ⟨of_not_not fun hl => hb (h.busy_iff_step.2 hl), Bool.eq_false_iff.2 fun hh => hb (h.busy_of_hung hh)⟩

/-- The invariant at the micro-step `l` of the command `i`, with no call outstanding. -/
structure ConsistentAt (s : State) (i : Instr) (t : Table) (l : Label) : Prop extends ControlConsistent s where
  busy : s.ctrl.phase = .busy
  cmd : s.ctrl.cmd = some i
  table : commandTable i = some t
  label : l ∈ t.labels
  stands : s.ctrl.seqPc = some l
  free : s.env.hung = false

namespace ConsistentAt

theorem of_eq (h : ConsistentAt s i t l) (hc : w.ctrl = s.ctrl) (hp : w.params = s.params)
    (hh : w.env.hung = s.env.hung) : ConsistentAt w i t l :=
  ⟨h.toControlConsistent.of_eq hc hp hh, hc ▸ h.busy, hc ▸ h.cmd, h.table, h.label, hc ▸ h.stands, hh ▸ h.free⟩

theorem bound_of_needsHandle (h : ConsistentAt s i t l) (hn : needsHandle i l = true) : s.ctrl.bound = 1 :=
  h.bound_at_step i l h.cmd h.stands hn

theorem setOpened (h : ConsistentAt s i t l) : ConsistentAt s.setOpened i t l :=
  { h with opened_of_bound := fun _ => rfl, opened_at_bind := fun _ => rfl }

theorem setBound (h : ConsistentAt s i t .O2) : ConsistentAt s.setBound i t .O2 :=
  { h with
    opened_of_bound := fun _ => h.opened_at_bind h.stands
    bound_of_ready := fun _ => rfl
    bound_at_step := fun _ _ _ _ _ => rfl }

theorem clearReady (h : ConsistentAt s i t l) : ConsistentAt s.clearReady i t l :=
  { h with bound_of_ready := fun hr => absurd hr (by decide : ¬ (0 : U1) = 1) }

theorem enterSetup (h : ConsistentAt s i t l) : ConsistentAt (s.enterSetup nxt) i t l := by
  unfold State.enterSetup
  split
  · exact h.clearReady
  · exact h

theorem setReady (h : ConsistentAt s i t .S16) : ConsistentAt s.setReady i t .S16 :=
  { h with bound_of_ready := fun _ => h.bound_of_needsHandle rfl }

/-- S16 is the only label whose own action writes a status register. -/
theorem localEffect (h : ConsistentAt s i t l) (ha : labelAction s l = some act)
    (hu : localEffect s act = some u) : ConsistentAt u i t l := by
  cases act with
  | markReady =>
    obtain rfl : l = .S16 := by simpa [Action.labels] using mem_labels ha
    cases hu
    exact h.setReady
  | _ => cases hu <;> exact { h with }

/-- The sequence goes on: only O1 and O2 lead to a step that needs more than they did. -/
theorem goto (h : ConsistentAt s i t l) (hn : nextLabel i l = nxt) (ho : l = .O1 → s.ctrl.opened = 1)
    (hb : l = .O2 → s.ctrl.bound = 1) : ControlConsistent (s.goto nxt) where
  busy_iff_step := by cases nxt <;> simp [h.busy]
  step_of_command := fun m hm => by
    rw [State.goto_seqPc] at hm
    exact ⟨i, t, by simpa using h.cmd, h.table, nextLabel_mem h.table h.label (hn.trans hm)⟩
  exit_of_phase := by cases nxt <;> simp [h.exit_of_phase, h.busy]
  no_cause := fun _ => by simpa using h.no_cause (by simp [h.busy])
  cause_of_failure := by cases nxt <;> simp [h.busy]
  opened_of_bound := by simpa using h.opened_of_bound
  bound_of_ready := by simpa using h.bound_of_ready
  opened_at_bind := fun hm => by
    rw [State.goto_seqPc] at hm
    simpa using ho (eq_O1_of_nextLabel (hn.trans hm))
  bound_at_step := fun j m hj hm hh => by
    rw [State.goto_cmd, h.cmd, Option.some.injEq] at hj
    rw [State.goto_seqPc] at hm
    rw [State.goto_bound]
    rcases needsHandle_of_next (hn.trans hm) (hj ▸ hh) with rfl | hh
    · exact hb rfl
    · exact h.bound_of_needsHandle hh
  busy_of_hung := by simp [h.free]

theorem raise (h : ConsistentAt s i t l) {c n : Byte} (hc : causeAt l = some (c, n)) :
    ControlConsistent (s.raise c n l) where
  busy_iff_step := by simp
  step_of_command := by simp
  exit_of_phase := by simp
  no_cause := by simp
  cause_of_failure := fun _ => ⟨l, rfl, hc⟩
  opened_of_bound := h.opened_of_bound
  bound_of_ready := h.bound_of_ready
  opened_at_bind := by simp
  bound_at_step := by simp
  busy_of_hung := by simp [h.free]

theorem finish (h : ConsistentAt s i t l) : ControlConsistent s.finish where
  busy_iff_step := by simp
  step_of_command := by simp
  exit_of_phase := by simp
  no_cause := fun _ => h.no_cause (by simp [h.busy])
  cause_of_failure := by simp
  opened_of_bound := h.opened_of_bound
  bound_of_ready := h.bound_of_ready
  opened_at_bind := by simp
  bound_at_step := by simp
  busy_of_hung := by simp [h.free]

/-- A hung call leaves the command where it stands. -/
theorem hang (h : ConsistentAt s i t l) : ControlConsistent s.hang :=
  { h with busy_of_hung := fun _ => h.busy }

/-- The sequence goes on from every label but O1 and O2, which `opened` and `bound` below handle. -/
theorem goto_of_action (h : ConsistentAt w i t l) (ha : labelAction s l = some act) (h1 : act ≠ .openNode)
    (h2 : act ≠ .bindAddress) : ControlConsistent (w.goto (nextLabel i l)) :=
  h.goto rfl (by rintro rfl; cases ha; exact absurd rfl h1) (by rintro rfl; cases ha; exact absurd rfl h2)

/-- A micro-step keeps the invariant, whatever the transport answers. -/
theorem performed (h : ConsistentAt s i t l) (ha : labelAction s l = some act)
    (hp : Performed l act (nextLabel i l) s w) : ControlConsistent w := by
  have answered : ∀ ev, ConsistentAt (s.takeAnswer ev) i t l := fun ev => h.of_eq rfl rfl rfl
  have hl := mem_labels ha
  cases hp with
  | hang => exact (answered _).hang
  | @stored a p hact =>
    subst hact
    have hav : ConsistentAt ((storeTransfer a (p.map some) (s.takeAnswer (.transfer (a :: p) .ok))).settleAfter l) i t l :=
      (answered (.transfer (a :: p) .ok)).of_eq (by simp) (by simp) (by simp)
    exact hav.goto_of_action ha nofun nofun
  | @failed a p hact =>
    subst hact
    have hav : ConsistentAt (havocTransfer a p (s.takeAnswer (.transfer (a :: p) .err))) i t l :=
      (answered _).of_eq havocTransfer_ctrl havocTransfer_params (by simp [havocTransfer])
    obtain ⟨c, n, hc, heq⟩ := raiseTransfer_eq hav.cmd h.table h.label ha
    rw [heq]
    exact hav.raise hc
  | opened hact =>
    obtain rfl : l = .O1 := by simpa [hact, Action.labels] using hl
    exact (answered _).setOpened.goto rfl (fun _ => rfl) (by simp)
  | openFailed hact =>
    obtain rfl : l = .O1 := by simpa [hact, Action.labels] using hl
    exact (answered _).raise rfl
  | bound hact =>
    obtain rfl : l = .O2 := by simpa [hact, Action.labels] using hl
    exact (answered _).setBound.enterSetup.goto rfl (by simp) (by simp)
  | bindFailed hact =>
    obtain rfl : l = .O2 := by simpa [hact, Action.labels] using hl
    exact (answered _).raise rfl
  | localStep hu =>
    refine (h.localEffect ha hu).goto_of_action ha ?_ ?_ <;> (rintro rfl; cases hu)
  | finish => exact h.finish

end ConsistentAt

/-! ### A command accepted -/

theorem row_of_firstFailing {c : Ctrl} (hf : firstFailing i c = none) {r : Reason} {check : Instr → Ctrl → Bool}
    (hr : (r, check) ∈ refusalTable) : check i c = false := by
  rw [firstFailing, Option.map_eq_none_iff, List.find?_eq_none] at hf
  simpa using hf _ hr

theorem eq_one_of_ne_zero : ∀ {b : U1}, b ≠ 0 → b = 1 := by decide

/-- `NotBound`'s row of R222. -/
theorem bound_of_firstFailing (hf : firstFailing i s.ctrl = none) (hn : needsBound i = true) : s.ctrl.bound = 1 := by
  have row : (needsBound i && s.ctrl.bound == 0) = false :=
    row_of_firstFailing hf (r := .notBound) (check := fun i c => needsBound i && c.bound == 0) (by simp [refusalTable])
  exact eq_one_of_ne_zero (by simpa [hn] using row)

/-- `NotOpen`'s row of R222. -/
theorem opened_of_firstFailing (hf : firstFailing .bindDev s.ctrl = none) : s.ctrl.opened = 1 :=
  eq_one_of_ne_zero (by
    simpa using row_of_firstFailing hf (r := .notOpen) (check := fun i c => i == .bindDev && c.opened == 0)
      (by simp [refusalTable]))

/-- The first step of a command needs a bound transport only where the command itself does. -/
theorem needsBound_of_first (hl : firstStep i = some l) (hn : needsHandle i l = true) : needsBound i = true := by
  cases i <;> cases hl <;> first | rfl | cases hn

theorem eq_bindDev_of_first (hl : firstStep i = some .O2) : i = .bindDev := by
  cases i <;> first | rfl | cases hl

theorem first_mem (ht : commandTable i = some t) (hl : firstStep i = some l) : l ∈ t.labels :=
  List.mem_of_head? ((table_first ht).trans hl)

namespace ConsistentAt

/-- Entering a sequence from `IDLE` (R94). -/
theorem accept (h : ControlConsistent s) (hf : firstFailing i s.ctrl = none) (ht : commandTable i = some t)
    (hl : firstStep i = some l) : ConsistentAt (s.accept i t.first) i t l := by
  have hi := phase_of_firstFailing hf
  have hpc : t.first = some l := (table_first ht).trans hl
  exact
    { busy_iff_step := by simp [hpc]
      step_of_command := fun m hm => by
        rw [State.accept_seqPc, hpc] at hm
        exact ⟨i, t, rfl, ht, Option.some.inj hm ▸ first_mem ht hl⟩
      exit_of_phase := by simp [h.exit_of_phase, hi]
      no_cause := fun _ => h.no_cause (by simp [hi])
      cause_of_failure := by simp
      opened_of_bound := h.opened_of_bound
      bound_of_ready := h.bound_of_ready
      opened_at_bind := fun hm => by
        rw [State.accept_seqPc, hpc] at hm
        obtain rfl := eq_bindDev_of_first (hl.trans hm)
        exact opened_of_firstFailing (s := s) hf
      bound_at_step := fun j m hj hm hn => by
        rw [State.accept_seqPc, hpc, Option.some.injEq] at hm
        rw [State.accept_cmd, Option.some.injEq] at hj
        exact bound_of_firstFailing (s := s) hf (needsBound_of_first hl (hm ▸ hj ▸ hn))
      busy_of_hung := fun _ => rfl
      busy := rfl
      cmd := rfl
      table := ht
      label := first_mem ht hl
      stands := hpc
      free := (h.of_idle hi).2 }

end ConsistentAt

/-- An accepted command enters its sequence; RESET_SEQ and SETUP clear `READY` besides (R94, R141, R144). -/
theorem State.acceptedBy_of_table (ht : commandTable i = some t) :
    s.acceptedBy i = s.accept i t.first ∨ s.acceptedBy i = (s.accept i t.first).clearReady := by
  cases i <;> cases ht <;> first | exact .inl rfl | exact .inr rfl

theorem ControlConsistent.acceptedBy (h : ControlConsistent s) (hf : firstFailing i s.ctrl = none) :
    ControlConsistent (s.acceptedBy i) := by
  cases ht : commandTable i with
  | some t =>
    obtain ⟨l, hl⟩ := firstStep_of_table ht
    have ha := ConsistentAt.accept h hf ht hl
    rcases State.acceptedBy_of_table (s := s) ht with e | e <;> rw [e]
    · exact ha.toControlConsistent
    · exact ha.clearReady.toControlConsistent
  | none => cases i <;> first | (cases ht; done) | exact { h with }

/-! ### One step of the machine -/

/-- The host's command keeps the invariant: it is refused, or accepted. -/
theorem ControlConsistent.issued (h : ControlConsistent s) (hi : isHostCommand i = true)
    (hb : s.ctrl.phase ≠ .busy) (hx : exec i s = .next w) : ControlConsistent w := by
  rcases exec_issued_next hi (not_executing hb) hx with ⟨r, rfl⟩ | ⟨hf, rfl⟩
  · exact h.of_eq rfl rfl rfl
  · exact h.acceptedBy hf

/-- The command in `CMD` keeps the invariant: its call still hangs, or it performs a micro-step. -/
theorem ControlConsistent.continued (h : ControlConsistent s) (hb : s.ctrl.phase = .busy)
    (hc : s.ctrl.cmd = some i) (hx : exec i s = .next w) : ControlConsistent w := by
  obtain ⟨t, ht⟩ := h.table_of_busy hb hc
  rcases exec_executing_next ht (executing_iff.2 ⟨hb, hc⟩) hx with ⟨-, rfl⟩ | ⟨hh, l, nxt, act, hl, hn, ha, hp⟩
  · exact h
  · have hm := Table.after_mem hn
    rw [table_after ht hm, Option.some.injEq] at hn
    exact ConsistentAt.performed ⟨h, hb, hc, ht, hm, hl, hh⟩ ha (hn ▸ hp)

/-- Settles O54, over the ways a step can answer a next state. -/
theorem controlConsistentKept : Obligations.ControlConsistentKept := by
  intro s w h hstep
  cases (step_next hstep).2 with
  | blockReset => exact .blockReset
  | deviceReset => unfold State.deviceReset; split <;> exact h.of_eq rfl rfl rfl
  | quiet hs => exact h.of_eq hs.ctrl hs.params hs.hung
  | refused hs => exact h.of_eq hs.ctrl hs.params hs.hung
  | executed hs hi hb _ hx => exact (h.of_eq hs.ctrl hs.params hs.hung).issued hi (hs.ctrl ▸ hb) hx
  | continued hs hb hc hx => exact (h.of_eq hs.ctrl hs.params hs.hung).continued (hs.ctrl ▸ hb) (hs.ctrl ▸ hc) hx

end Sys2Proof.Machine
end

section
/-! SUPPORT. The resets (10_state.md R22, R42; 70_reset_and_hazards.md R240, R241), the terminal phases (R23, R218), the
one output of a step (R20, R74, R129), the dark bank (R146), LOAD_FRAME (R168) and the one-byte config classes (R92). -/

namespace Sys2Proof.Machine

open Sys2Proof.Config

variable {s u w : State} {i : Instr} {l : Label} {t : Table} {nxt : Option Label} {act : Action}

/-! ### The resets -/

theorem step_of_wellFormed (h : wellFormedParams s.params = true) : step s = nextEvent s := if_pos h

theorem nextEvent_blockReset {evs : List EnvEvent} (h : s.env.sched = .blockReset :: evs) :
    nextEvent s = .next (s.withSched evs).blockReset := by
  simp only [nextEvent, h]

theorem nextEvent_deviceReset {evs : List EnvEvent} (h : s.env.sched = .deviceReset :: evs) :
    nextEvent s = .next (s.withSched evs).deviceReset := by
  simp only [nextEvent, h]

/-- Settles O50: the event's own equation. -/
theorem blockResetRestoresControl : Obligations.BlockResetRestoresControl := by
  intro s evs hp hs
  rw [step_of_wellFormed hp, nextEvent_blockReset hs]
  rfl

/-- A hung `open` or `bindAddress` is no transfer (R70). -/
theorem inTransfer_eq_false (h : s.env.hung = false ∨ s.ctrl.seqPc = some .O1 ∨ s.ctrl.seqPc = some .O2) :
    s.inTransfer = false := by
  rcases h with h | h | h <;> simp [State.inTransfer, h]

theorem deviceReset_eq (h : s.inTransfer = false) :
    s.deviceReset = { s with dev := .powerOn, settlePending := false } := by
  simp [State.deviceReset, h]

theorem enableByte_powerOn {b j : Nat} : Dev.powerOn.enableByte b j = some 0x00 := Memory.read_nil

theorem colorByte_powerOn {b k : Nat} : Dev.powerOn.colorByte b k = none := Memory.read_nil

/-- Settles O51: outside a transfer the event puts DEV at power-on. -/
theorem deviceResetPowersOn : Obligations.DeviceResetPowersOn := by
  intro s evs hp hs ht
  have hr := deviceReset_eq (s := s.withSched evs) (inTransfer_eq_false ht)
  exact ⟨{ s.withSched evs with dev := .powerOn, settlePending := false },
    by rw [step_of_wellFormed hp, nextEvent_deviceReset hs, hr], rfl, rfl, rfl, rfl, rfl, rfl, rfl, rfl, rfl,
    fun _ _ => enableByte_powerOn, fun _ _ => colorByte_powerOn⟩

theorem CanonicalMemories.reset : CanonicalMemories State.reset := by
  constructor <;> first | exact Memory.wf_nil | exact fun _ h => nomatch h

/-- Settles O52: CTRL's reset column is what a block reset leaves, and no sequence stands at a label. -/
theorem resetMeetsInvariants : Obligations.ResetMeetsInvariants := by
  have bank : BankSelected State.reset := fun l _ (hl : none = some l) => nomatch hl
  exact ⟨.reset, (ControlConsistent.blockReset (s := State.reset)).of_eq rfl rfl rfl, bank,
    ScrollInRange.of_zero (by decide) rfl rfl⟩

/-! ### The terminal phases -/

theorem firstFailing_terminal {c : Ctrl} (h : c.phase = .done ∨ c.phase = .failed) :
    firstFailing i c = some .terminal := by
  rcases h with h | h <;> simp [firstFailing_eq, h]

/-- Settles O21: every way a step changes CTRL, but the block reset, starts in `IDLE` or `BUSY`. -/
theorem onlyBlockResetLeavesTerminal : Obligations.OnlyBlockResetLeavesTerminal := by
  intro s hs
  have idle : s.ctrl.phase ≠ .idle := by rcases hs with h | h <;> simp [h]
  have busy : s.ctrl.phase ≠ .busy := by rcases hs with h | h <;> simp [h]
  refine ⟨fun i hi => ?_, fun w hstep => ?_⟩
  · rw [exec_issued hi (not_executing busy), firstRefusal_ownChecks hi, firstFailing_terminal hs]
    rfl
  · have stepped := (step_next hstep).2
    by_cases hr : ∃ evs, s.env.sched = .blockReset :: evs
    · obtain ⟨evs, hr⟩ := hr
      rw [step_of_wellFormed (step_next hstep).1, nextEvent_blockReset hr, Host.Outcome.next.injEq] at hstep
      exact .inr ⟨hstep ▸ rfl, evs, hr⟩
    · cases ctrlStep_of_stepped stepped fun evs h => hr ⟨evs, h⟩ with
      | same h => exact .inl h
      | loaded had => exact absurd had.idle idle
      | accepted hacc => exact absurd hacc.idle idle
      | performed _ hb => exact absurd hb busy

/-! ### One output per step -/

/-- What a step shows: no output and the device as it was, or one output, and a changed device only with a transfer that
returned. -/
def ShowsOne (s w : State) : Prop :=
  (w.env.trace = s.env.trace ∧ w.dev = s.dev) ∨
    ∃ ev, w.env.trace = ev :: s.env.trace ∧ (w.dev = s.dev ∨ ∃ bytes r, ev = .transfer bytes r ∧ r ≠ .hang)

@[simp] theorem State.raiseTransfer_env : (s.raiseTransfer l).env = s.env := by
  unfold State.raiseTransfer; split <;> rfl

@[simp] theorem State.acceptedBy_trace : (s.acceptedBy i).env.trace = s.env.trace := by cases i <;> rfl
@[simp] theorem State.acceptedBy_dev : (s.acceptedBy i).dev = s.dev := by cases i <;> rfl

/-- The only action of CTRL's own that shows on an output is the wait. -/
theorem localEffect_shows (h : localEffect s act = some u) : ShowsOne s u := by
  cases act with
  | wait ms => cases h; exact .inr ⟨.wait ms, rfl, .inl rfl⟩
  | _ => cases h <;> exact .inl ⟨rfl, rfl⟩

theorem Performed.shows (h : Performed l act nxt s w) : ShowsOne s w := by
  cases h with
  | @hang ev => exact .inr ⟨ev, rfl, .inl rfl⟩
  | @stored a p => exact .inr ⟨.transfer (a :: p) .ok, by simp, .inr ⟨_, _, rfl, by simp⟩⟩
  | @failed a p => exact .inr ⟨.transfer (a :: p) .err, by simp [havocTransfer], .inr ⟨_, _, rfl, by simp⟩⟩
  | opened => exact .inr ⟨.openCall s.params.devicePath .ok, by simp, .inl (by simp)⟩
  | bound => exact .inr ⟨.bindCall s.params.deviceAddress .ok, by simp, .inl (by simp)⟩
  | openFailed | bindFailed => exact .inr ⟨_, rfl, .inl rfl⟩
  | localStep hu => simpa [ShowsOne] using localEffect_shows hu
  | finish => exact .inl ⟨rfl, rfl⟩

theorem exec_issued_shows (hi : isHostCommand i = true) (hb : s.ctrl.phase ≠ .busy) (h : exec i s = .next w) :
    ShowsOne s w := by
  rcases exec_issued_next hi (not_executing hb) h with ⟨r, rfl⟩ | ⟨-, rfl⟩
  · exact .inl ⟨rfl, rfl⟩
  · exact .inl ⟨by simp, by simp⟩

theorem exec_continued_shows (ht : commandTable i = some t) (he : s.executing i = true) (h : exec i s = .next w) :
    ShowsOne s w := by
  rcases exec_executing_next ht he h with ⟨-, rfl⟩ | ⟨-, l, nxt, act, -, -, -, hp⟩
  · exact .inl ⟨rfl, rfl⟩
  · exact hp.shows

theorem SameButInputs.shows (hs : SameButInputs s u) (h : ShowsOne u w) : ShowsOne s w := by
  simpa only [ShowsOne, hs.trace, hs.dev] using h

theorem State.deviceReset_trace : s.deviceReset.env.trace = s.env.trace := by
  unfold State.deviceReset; split <;> rfl

/-- Settles O60, over the ways a step can answer a next state. -/
theorem oneOutputPerStep : Obligations.OneOutputPerStep := by
  intro s w hc hstep
  have stepped := (step_next hstep).2
  refine ⟨stepped.params_eq, ?_⟩
  have shown : ShowsOne s w → _ := Or.imp_left (And.imp_right (Or.inl (b := ∃ evs, s.env.sched = .deviceReset :: evs)))
  cases stepped with
  | blockReset => exact .inl ⟨rfl, .inl rfl⟩
  | deviceReset h => exact .inl ⟨State.deviceReset_trace, .inr ⟨_, h⟩⟩
  | quiet hs | refused hs => exact .inl ⟨hs.trace, .inl hs.dev⟩
  | executed hs hi hb _ h => exact shown (hs.shows (exec_issued_shows hi (hs.ctrl ▸ hb) h))
  | continued hs hb hcmd h =>
    obtain ⟨t, ht⟩ := hc.table_of_busy hb hcmd
    exact shown (hs.shows (exec_continued_shows ht (executing_iff.2 ⟨hs.ctrl ▸ hb, hs.ctrl ▸ hcmd⟩) h))

/-! ### A bank that was never enabled -/

/-- An LED is dark whose enable byte is 0x00, or is no byte of the enable area (R40). -/
theorem disp_dark {b k : Nat} (hb : displayedBank s = some b)
    (hk : k / 8 < s.params.enableRegCount → s.dev.enableByte b (k / 8) = some 0x00) : disp s k = some 0x00 := by
  unfold disp
  rw [hb]
  by_cases hc : k / 8 ≥ s.params.enableRegCount
  · simp [hc]
  · simp [hc, hk (by omega)]

/-- Settles O38: every LED of the bank has a 0x00 enable byte or none. -/
theorem unenabledBankIsDark : Obligations.UnenabledBankIsDark :=
  fun _ _ hb he _ _ => disp_dark hb (he _)

/-! ### LOAD_FRAME -/

/-- A command that passes R222's checks is accepted (R94). -/
theorem exec_admitted (hi : isHostCommand i = true) (hf : firstFailing i s.ctrl = none) :
    exec i s = .next (s.acceptedBy i) := by
  have he : s.executing i = false := not_executing (by simp [phase_of_firstFailing hf])
  rw [exec_issued hi he, firstRefusal_ownChecks hi, hf]

theorem firstFailing_loadFrame {f : List Byte} {c : Ctrl} (hp : c.phase = .idle) (hf : f.length = 119) :
    firstFailing (.loadFrame f) c = none := by
  simp [firstFailing_eq, hp, isReservedOpcode, illegalOperands, hf, cells, needsBound, needsReady]

theorem exec_loadFrame {f : List Byte} (hp : s.ctrl.phase = .idle) (hf : f.length = 119) :
    exec (.loadFrame f) s = .next (s.admitted.loadFrame f) :=
  exec_admitted rfl (firstFailing_loadFrame hp hf)

/-- Every cell of the loaded frame is a byte of the operand. -/
theorem frameCell_frameOfBytes_eq_getElem? {f : List Byte} {x y : Nat} (hf : f.length = 119) (hx : x < 17)
    (hy : y < 7) : some (frameCell (frameOfBytes f) x y) = f[17 * y + x]? := by
  rw [frameCell_frameOfBytes hx hy, List.getD_eq_getElem?_getD, List.getElem?_eq_getElem (by omega)]
  rfl

/-- Settles O20: LOAD_FRAME passes its checks, and its frame holds the operand's bytes. -/
theorem loadFrameStores : Obligations.LoadFrameStores :=
  fun _ f hp hf => ⟨frameOfBytes f, exec_loadFrame hp hf, fun _ hx _ hy => frameCell_frameOfBytes_eq_getElem? hf hx hy⟩

/-! ### The one-byte classes of the config bank -/

/-- One payload byte lands in the register that its address names in the selected bank (R66). -/
theorem storeTransfer_one {a b : Byte} {v : Option Byte} {r : Target} (ha : a ≠ s.params.bankRegister)
    (hb : s.dev.banksel = some b) (hr : target s.params b a.toNat = some r) :
    storeTransfer a [v] s = writeTarget r v s := by
  rw [storeTransfer_relative ha hb]
  simp [writePayload, hr]

theorem transferFault_one {a b : Byte} {r : Target} (h : ParamFacts s.params) (ha : a ≠ s.params.bankRegister)
    (hb : s.dev.banksel = some b) (hr : target s.params b a.toNat = some r) :
    transferFault s.params s.dev.banksel a 1 = none :=
  (transferFault_none_iff h ha).2 ⟨one_ne_zero, b, hb, fun k hk => by
    obtain rfl : k = 0 := by omega
    simp [hr]⟩

theorem applyTransfer_one {a b v : Byte} {r : Target} (h : ParamFacts s.params) (ha : a ≠ s.params.bankRegister)
    (hb : s.dev.banksel = some b) (hr : target s.params b a.toNat = some r) :
    applyTransfer a [v] s = .next (writeTarget r (some v) s) :=
  applyTransfer_next.2 ⟨transferFault_one h ha hb hr, (storeTransfer_one ha hb hr).symm⟩

/-- Settles O9: each register's address names it in the config bank. -/
theorem configClassesStore : Obligations.ConfigClassesStore := by
  intro s v hp hb
  have h := paramFacts hp
  exact ⟨applyTransfer_one h h.bank_ne_mode.symm hb (target_mode h),
    applyTransfer_one h h.bank_ne_frame.symm hb (target_frame h),
    applyTransfer_one h h.bank_ne_audio.symm hb (target_audioSync h),
    applyTransfer_one h h.bank_ne_shutdown.symm hb (target_shutdown h)⟩

end Sys2Proof.Machine
end

section
/-! SUPPORT. Which step writes which register of CTRL (10_state.md R22 to R24, R28, R43; 30_encoding.md R94;
60_exceptions.md R211, R215). -/

namespace Sys2Proof.Machine

open Sys2Proof.Config

variable {s u w : State} {i : Instr} {l : Label} {t : Table} {nxt : Option Label} {act : Action}

/-! ### What an action writes -/

/-- The registers that an action may write, beside those of R24's end of a micro-step and of R215's error. -/
structure ActionWrites (act : Action) (nxt : Option Label) (c d : Ctrl) : Prop where
  cmd : d.cmd = c.cmd
  opened : d.opened ≠ c.opened → act = .openNode
  bound : d.bound ≠ c.bound → act = .bindAddress
  ready : d.ready ≠ c.ready → act = .markReady ∨ (act = .bindAddress ∧ nxt = some .S1)
  offset : d.offset ≠ c.offset → act = .initScroll ∨ act = .stepOffset
  active : d.active ≠ c.active → act = .initScroll ∨ act = .toggleActive
  textw : d.textw ≠ c.textw → act = .initScroll ∨ act = .renderFrame
  pbuf : d.pbuf ≠ c.pbuf → act = .mapBuffer
  lframe : d.lframe ≠ c.lframe → act = .renderFrame

theorem ActionWrites.of_eq {c d : Ctrl} (h : d = c) : ActionWrites act nxt c d := by
  subst h; constructor <;> simp

theorem ActionWrites.raise {a b : Byte} (h : u.ctrl = s.ctrl) : ActionWrites act nxt s.ctrl (u.raise a b l).ctrl := by
  constructor <;> simp [h]

theorem ActionWrites.raiseTransfer (h : u.ctrl = s.ctrl) : ActionWrites act nxt s.ctrl (u.raiseTransfer l).ctrl := by
  unfold State.raiseTransfer; split <;> exact .raise h

theorem ActionWrites.goto (h : ActionWrites act nxt s.ctrl u.ctrl) : ActionWrites act nxt s.ctrl (u.goto nxt).ctrl := by
  obtain ⟨h1, h2, h3, h4, h5, h6, h7, h8, h9⟩ := h
  constructor <;> simpa

theorem localEffect_writes (h : localEffect s act = some u) : ActionWrites act nxt s.ctrl u.ctrl := by
  cases act <;> cases h <;> constructor <;> simp

theorem Performed.writes (h : Performed l act nxt s w) : ActionWrites act nxt s.ctrl w.ctrl := by
  cases h with
  | hang => exact .of_eq rfl
  | stored => exact .goto (.of_eq (by simp))
  | failed => exact .raiseTransfer havocTransfer_ctrl
  | opened hact => subst hact; constructor <;> simp
  | bound hact => subst hact; constructor <;> simp +contextual
  | openFailed | bindFailed => exact .raise rfl
  | localStep hu => exact (localEffect_writes hu).goto
  | finish => constructor <;> simp

/-! ### How a micro-step leaves the sequence -/

/-- No error is recorded from `c` to `d`. -/
def SameCause (c d : Ctrl) : Prop := d.cause = c.cause ∧ d.causeInner = c.causeInner ∧ d.causeStep = c.causeStep

theorem Raised.of_raise {a b : Byte} (hs : s.standsAt l) (hc : causeAt l = some (a, b)) (hp : u.params = s.params) :
    Raised s (u.raise a b l) l :=
  ⟨hs, rfl, hc, rfl, by simp [hp], rfl⟩

/-- The ways a micro-step leaves the sequence: a hung call changes nothing, an error is raised, K3 ends the scroll, or the
sequence goes on. -/
inductive LeavesStep (s w : State) (i : Instr) (l : Label) : Prop where
  | stuck (h : w.ctrl = s.ctrl)
  | raised (h : Raised s w l)
  | finished (h : Finished s w) (hc : SameCause s.ctrl w.ctrl)
  | sequenced (h : Sequenced s w i l) (hc : SameCause s.ctrl w.ctrl) (hx : w.ctrl.exit = s.ctrl.exit)

theorem LeavesStep.of_goto (hs : s.standsAt l) (hc : s.ctrl.cmd = some i) (hph : u.ctrl.phase = s.ctrl.phase)
    (hca : SameCause s.ctrl u.ctrl) (hx : u.ctrl.exit = s.ctrl.exit) : LeavesStep s (u.goto (nextLabel i l)) i l :=
  .sequenced ⟨hs, hc, by simp, by simp [hph, hs.1]⟩ (by simpa [SameCause] using hca) (by simpa using hx)

/-- No action of CTRL's own writes `PHASE`, a cause or `EXIT`. -/
theorem localEffect_status (h : localEffect s act = some u) :
    u.ctrl.phase = s.ctrl.phase ∧ SameCause s.ctrl u.ctrl ∧ u.ctrl.exit = s.ctrl.exit := by
  cases act <;> cases h <;> exact ⟨rfl, ⟨rfl, rfl, rfl⟩, rfl⟩

theorem Performed.leaves (hu : SameButInputs s u) (hs : s.standsAt l) (hc : s.ctrl.cmd = some i)
    (ht : commandTable i = some t) (hm : l ∈ t.labels) (ha : labelAction u l = some act)
    (hp : Performed l act (nextLabel i l) u w) : LeavesStep s w i l := by
  have hlabel := mem_labels ha
  cases hp with
  | hang => exact .stuck hu.ctrl
  | stored | opened | bound =>
    exact .of_goto hs hc (by simp [hu.ctrl]) (by simp [SameCause, hu.ctrl]) (by simp [hu.ctrl])
  | @failed a p hact =>
    subst hact
    have hcmd : (havocTransfer a p (u.takeAnswer (.transfer (a :: p) .err))).ctrl.cmd = some i := by
      simpa [hu.ctrl] using hc
    obtain ⟨c, n, hca, e⟩ := raiseTransfer_eq hcmd ht hm ha
    rw [e]
    exact .raised (.of_raise hs hca (by simp [hu.params]))
  | openFailed hact =>
    obtain rfl : l = .O1 := by simpa [hact, Action.labels] using hlabel
    exact .raised (.of_raise hs rfl hu.params)
  | bindFailed hact =>
    obtain rfl : l = .O2 := by simpa [hact, Action.labels] using hlabel
    exact .raised (.of_raise hs rfl hu.params)
  | localStep he =>
    obtain ⟨hph, hca, hx⟩ := localEffect_status he
    exact .of_goto hs hc (by rw [hph, hu.ctrl]) (hu.ctrl ▸ hca) (by rw [hx, hu.ctrl])
  | finish hact =>
    obtain rfl : l = .K3 := by simpa [hact, Action.labels] using hlabel
    exact .finished ⟨hs, rfl, rfl, rfl⟩ (by simp [SameCause, hu.ctrl])

/-- RUN alone goes from O2 to S1. -/
theorem eq_run_of_nextLabel (h : nextLabel i .O2 = some .S1) : i = .run := by
  by_contra hi; simp [nextLabel, hi] at h

/-- Settles O58: a register changes with a command taken, or as the action and the outcome of a micro-step allow. -/
theorem controlRegisterWriters : Obligations.ControlRegisterWriters := by
  intro s w hstep hreset
  cases ctrlStep_of_stepped (step_next hstep).2 hreset with
  | same h => simp [h]
  | loaded had hc =>
    refine ⟨?_, ?_, ?_, ?_, ?_, ?_, ?_, ?_, ?_, ?_, ?_, fun _ => .inr ⟨_, had, hc⟩⟩ <;> simp [hc]
  | @accepted i hacc hc hr =>
    refine ⟨fun _ => ⟨i, hacc⟩, fun _ => .inl ⟨i, hacc⟩, ?_, ?_, ?_, ?_, fun h => ?ready, ?_, ?_, ?_, ?_, ?_⟩
    case ready =>
      rcases hr with hr | rfl | rfl
      · exact absurd hr h
      · exact .inr (.inr (.inl hacc))
      · exact .inr (.inr (.inr hacc))
    all_goals rw [hc]; simp
  | @performed u i t l nxt act hu hb hcmd ht hl hn ha hp =>
    have hm := Table.after_mem hn
    obtain rfl : nextLabel i l = nxt := Option.some.inj ((table_after ht hm).symm.trans hn)
    have stands : s.standsAt l := ⟨hb, hl⟩
    have leaves := hp.leaves hu stands hcmd ht hm ha
    obtain ⟨wcmd, wopened, wbound, wready, woffset, wactive, wtextw, wpbuf, wlframe⟩ := hu.ctrl ▸ hp.writes
    have label : ∀ {b : Action} {m}, act = b → b.labels = [m] → s.standsAt m := fun hact e => by
      have hlabel := mem_labels ha
      rw [hact, e, List.mem_singleton] at hlabel
      exact hlabel ▸ stands
    refine ⟨fun h => absurd wcmd h, fun h => ?phase, fun h => ?cause, fun h => ?exit, fun h => ?opened, fun h => ?bound,
      fun h => ?ready, fun h => ?offset, fun h => ?active, fun h => ?textw, fun h => ?pbuf, fun h => .inl ?lframe⟩
    case phase =>
      cases leaves with
      | stuck e => simp [e] at h
      | raised r => exact .inr (.inr (.inr ⟨l, r⟩))
      | finished f => exact .inr (.inr (.inl f))
      | sequenced q => exact .inr (.inl ⟨i, l, q⟩)
    case cause =>
      cases leaves with
      | stuck e => simp [e] at h
      | raised r => exact ⟨l, r⟩
      | finished _ hc | sequenced _ hc => simp [hc.1, hc.2.1, hc.2.2] at h
    case exit =>
      cases leaves with
      | stuck e => simp [e] at h
      | raised r => exact .inr ⟨l, r⟩
      | finished f => exact .inl f
      | sequenced _ _ hx => exact absurd hx h
    case opened => exact label (wopened h) rfl
    case bound => exact label (wbound h) rfl
    case ready =>
      rcases wready h with hact | ⟨hact, hn⟩
      · exact .inl (label hact rfl)
      · have hO2 : s.standsAt .O2 := label hact rfl
        obtain rfl : l = .O2 := Option.some.inj (hl.symm.trans hO2.2)
        exact .inr (.inl ⟨hO2, hcmd.trans (congrArg some (eq_run_of_nextLabel hn))⟩)
    case offset => exact (woffset h).imp (label · rfl) (label · rfl)
    case active => exact (wactive h).imp (label · rfl) (label · rfl)
    case textw => exact (wtextw h).imp (label · rfl) (label · rfl)
    case pbuf =>
      have hlabel : l = .M1 ∨ l = .U1 := by simpa [wpbuf h, Action.labels] using mem_labels ha
      rcases hlabel with rfl | rfl
      exacts [.inl stands, .inr stands]
    case lframe => exact label (wlframe h) rfl

end Sys2Proof.Machine
end

section
/-! SUPPORT. A step reads nothing of the device into CTRL or ENV (10_state.md R34, R35; 20_memory.md R60): two states that
differ in the device alone go on side by side. -/

namespace Sys2Proof.Machine

open Sys2Proof.Config

variable {s s' u w w' : State} {i : Instr} {l : Label} {t : Table} {nxt : Option Label} {act : Action} {o o' : Out}

/-- The two states differ in the device and `SETTLE_PENDING` alone. -/
structure SameControl (s s' : State) : Prop where
  ctrl : s'.ctrl = s.ctrl
  env : s'.env = s.env
  params : s'.params = s.params

/-- Where both outcomes are next states, these differ in the device alone. -/
def Agree (o o' : Out) : Prop := ∀ w w', o = .next w → o' = .next w' → SameControl w w'

/-! ### Operations of the state -/

namespace SameControl

theorem symm (h : SameControl s s') : SameControl s' s := ⟨h.ctrl.symm, h.env.symm, h.params.symm⟩

theorem trans (h : SameControl s s') (h' : SameControl s' u) : SameControl s u :=
  ⟨h'.ctrl.trans h.ctrl, h'.env.trans h.env, h'.params.trans h.params⟩

/-- An operation that treats any two devices alike keeps the relation. -/
theorem map (h : SameControl s s') (f : State → State)
    (hf : ∀ s d p, SameControl (f s) (f { s with dev := d, settlePending := p })) : SameControl (f s) (f s') := by
  obtain ⟨c, d, p, e, q⟩ := s
  obtain ⟨c', d', p', e', q'⟩ := s'
  obtain ⟨rfl, rfl, rfl⟩ := h
  exact hf _ d' p'

theorem goto (h : SameControl s s') : SameControl (s.goto nxt) (s'.goto nxt) :=
  h.map (State.goto · nxt) fun _ _ _ => by cases nxt <;> exact ⟨rfl, rfl, rfl⟩

theorem takeAnswer {ev : BusEvent} (h : SameControl s s') : SameControl (s.takeAnswer ev) (s'.takeAnswer ev) :=
  h.map (State.takeAnswer · ev) fun _ _ _ => ⟨rfl, rfl, rfl⟩

theorem raise {c n : Byte} (h : SameControl s s') : SameControl (s.raise c n l) (s'.raise c n l) :=
  h.map (State.raise · c n l) fun _ _ _ => ⟨rfl, rfl, rfl⟩

theorem raiseTransfer (h : SameControl s s') : SameControl (s.raiseTransfer l) (s'.raiseTransfer l) := by
  unfold State.raiseTransfer
  rw [h.ctrl]
  split <;> exact h.raise

theorem setBound_enterSetup (h : SameControl s s') :
    SameControl (s.setBound.enterSetup nxt) (s'.setBound.enterSetup nxt) := by
  unfold State.enterSetup
  split
  · exact h.map (fun s => s.setBound.clearReady) fun _ _ _ => ⟨rfl, rfl, rfl⟩
  · exact h.map State.setBound fun _ _ _ => ⟨rfl, rfl, rfl⟩

theorem refuse {r : Reason} (h : SameControl s s') : SameControl (s.refuse r) (s'.refuse r) :=
  h.map (State.refuse · r) fun _ _ _ => ⟨rfl, rfl, rfl⟩

theorem acceptedBy (h : SameControl s s') : SameControl (s.acceptedBy i) (s'.acceptedBy i) :=
  h.map (State.acceptedBy · i) fun _ _ _ => by cases i <;> exact ⟨rfl, rfl, rfl⟩

theorem withStream {bs : List Byte} (h : SameControl s s') : SameControl (s.withStream bs) (s'.withStream bs) :=
  h.map (State.withStream · bs) fun _ _ _ => ⟨rfl, rfl, rfl⟩

theorem withSched {evs : List EnvEvent} (h : SameControl s s') : SameControl (s.withSched evs) (s'.withSched evs) :=
  h.map (State.withSched · evs) fun _ _ _ => ⟨rfl, rfl, rfl⟩

theorem storeTransfer {a : Byte} {vs : List (Option Byte)} : SameControl s (storeTransfer a vs s) :=
  ⟨storeTransfer_ctrl, storeTransfer_env, storeTransfer_params⟩

theorem deviceReset : SameControl s s.deviceReset := by
  unfold State.deviceReset; split <;> exact ⟨rfl, rfl, rfl⟩

theorem labelAction_eq (h : SameControl s s') : labelAction s' l = labelAction s l := by
  cases l <;> simp [labelAction, activeByte, colorBlockBytes, h.ctrl, h.params]

theorem executing_eq (h : SameControl s s') : s'.executing i = s.executing i := by
  simp [State.executing, h.ctrl]

end SameControl

/-- A command that the host issues, or that has no micro-steps, is accepted or refused by R222's checks. -/
theorem exec_issued_eq (hi : isHostCommand i = true) (h : s.executing i = false ∨ commandTable i = none) :
    exec i s = (firstFailing i s.ctrl).elim (.next (s.acceptedBy i)) fun r => .next (s.refuse r) := by
  rw [← firstRefusal_ownChecks hi]
  rcases h with he | ht
  · rw [exec_issued hi he]; cases firstRefusal (ownChecks i) s.ctrl <;> rfl
  · rw [exec_immediate hi ht]; cases firstRefusal (ownChecks i) s.ctrl <;> rfl

/-! ### A micro-step -/

namespace Agree

theorem next (h : SameControl s s') : Agree (.next s) (.next s') := by
  rintro _ _ ⟨⟩ ⟨⟩; exact h

theorem fault {f : Fault} : Agree (.fault f) o := fun _ _ h => nomatch h

/-- The transport answers both runs alike, since they share ENV (log 5). -/
theorem callTransport {ev : Answer → BusEvent} {f g : State → Out} (h : SameControl s s')
    (hf : ∀ {u u'}, SameControl u u' → Agree (f u) (f u')) (hg : ∀ {u u'}, SameControl u u' → Agree (g u) (g u')) :
    Agree (callTransport ev f g s) (callTransport ev f g s') := by
  unfold Machine.callTransport
  rw [h.env]
  cases s.env.nextAnswer with
  | ok => exact hf h.takeAnswer
  | err => exact hg h.takeAnswer
  | hang => exact next (h.map (fun s => (s.takeAnswer _).hang) fun _ _ _ => ⟨rfl, rfl, rfl⟩)

/-- R66 decides in each run whether the transfer faults; where it does in neither, the sequence goes on alike. -/
theorem completeTransfer {a : Byte} {p : List Byte} (h : SameControl s s') :
    Agree (completeTransfer l a p nxt s) (completeTransfer l a p nxt s') := by
  have done : ∀ {s w : State}, Machine.completeTransfer l a p nxt s = .next w → SameControl (s.goto nxt) w := by
    intro s w hw
    unfold Machine.completeTransfer at hw
    rcases applyTransfer_cases (s := s) (a := a) (p := p) with ⟨f, -, e⟩ | ⟨-, e⟩ <;> rw [e] at hw
    · cases hw
    · cases hw
      exact SameControl.goto ⟨by simp, by simp, by simp⟩
  exact fun w w' hw hw' => (done hw).symm.trans (h.goto.trans (done hw'))

theorem failTransfer {a : Byte} {p : List Byte} (h : SameControl s s') :
    Agree (failTransfer l a p s) (failTransfer l a p s') := by
  have done : ∀ {s w : State}, Machine.failTransfer l a p s = .next w → SameControl (s.raiseTransfer l) w := by
    intro s w hw
    unfold Machine.failTransfer at hw
    split at hw <;> cases hw
    exact SameControl.storeTransfer.raiseTransfer
  exact fun w w' hw hw' => (done hw).symm.trans (h.raiseTransfer.trans (done hw'))

theorem perform (h : SameControl s s') : Agree (perform l act nxt s) (perform l act nxt s') := by
  cases act with
  | xfer a p => exact callTransport h completeTransfer failTransfer
  | openNode =>
    simp only [Machine.perform, openStep, h.params]
    exact callTransport h (fun hu => next (hu.map State.setOpened fun _ _ _ => ⟨rfl, rfl, rfl⟩).goto)
      fun hu => next hu.raise
  | bindAddress =>
    simp only [Machine.perform, bindStep, h.params]
    exact callTransport h (fun hu => next hu.setBound_enterSetup.goto) fun hu => next hu.raise
  | testEnd =>
    simp only [Machine.perform, h.ctrl]
    split
    · exact next (h.map State.finish fun _ _ _ => ⟨rfl, rfl, rfl⟩)
    · exact next h.goto
  | wait ms => exact next (h.map (State.waited · ms) fun _ _ _ => ⟨rfl, rfl, rfl⟩).goto
  | markReady => exact next (h.map State.setReady fun _ _ _ => ⟨rfl, rfl, rfl⟩).goto
  | mapBuffer => exact next (h.map State.mapBuffer fun _ _ _ => ⟨rfl, rfl, rfl⟩).goto
  | initScroll => exact next (h.map State.initScroll fun _ _ _ => ⟨rfl, rfl, rfl⟩).goto
  | toggleActive => exact next (h.map State.toggleActive fun _ _ _ => ⟨rfl, rfl, rfl⟩).goto
  | stepOffset => exact next (h.map State.stepOffset fun _ _ _ => ⟨rfl, rfl, rfl⟩).goto
  | renderFrame => exact next (h.map State.renderFrame fun _ _ _ => ⟨rfl, rfl, rfl⟩).goto

theorem microStep (h : SameControl s s') : Agree (microStep t s) (microStep t s') := by
  unfold Machine.microStep
  rw [h.env, h.ctrl]
  split
  · exact next h
  · cases s.ctrl.seqPc with
    | none => exact fault
    | some l =>
      simp only [h.labelAction_eq]
      split
      · exact perform h
      · exact fault

/-! ### One step of the machine -/

theorem issued {r : Option Reason} (h : SameControl s s') :
    Agree (r.elim (.next (s.acceptedBy i)) fun r => .next (s.refuse r))
      (r.elim (.next (s'.acceptedBy i)) fun r => .next (s'.refuse r)) := by
  cases r with
  | none => exact next h.acceptedBy
  | some r => exact next h.refuse

theorem exec (h : SameControl s s') : Agree (exec i s) (exec i s') := by
  cases hi : isHostCommand i with
  | false =>
    intro w w' hw hw'
    obtain ⟨a, p, -, -, rfl⟩ := exec_wire_next hi hw
    obtain ⟨a', p', -, -, rfl⟩ := exec_wire_next hi hw'
    exact SameControl.storeTransfer.symm.trans (h.trans .storeTransfer)
  | true =>
    cases he : s.executing i with
    | false =>
      rw [exec_issued_eq hi (.inl he), exec_issued_eq hi (.inl (h.executing_eq.trans he)), h.ctrl]
      exact issued h
    | true =>
      cases ht : commandTable i with
      | none =>
        rw [exec_issued_eq hi (.inr ht), exec_issued_eq hi (.inr ht), h.ctrl]
        exact issued h
      | some t =>
        rw [exec_executing ht he, exec_executing ht (h.executing_eq.trans he)]
        exact microStep h

theorem issueCommand (h : SameControl s s') : Agree (issueCommand s) (issueCommand s') := by
  unfold Machine.issueCommand
  rw [h.env, h.ctrl]
  split
  · exact next h
  · exact next h.withStream.refuse
  · split
    · exact next h.withStream.refuse
    · exact exec h.withStream

theorem proceed (h : SameControl s s') : Agree (proceed s) (proceed s') := by
  unfold Machine.proceed
  rw [h.ctrl]
  split
  · split
    · exact exec h
    · exact fault
  · exact issueCommand h

theorem nextEvent (h : SameControl s s') : Agree (nextEvent s) (nextEvent s') := by
  unfold Machine.nextEvent
  rw [h.env]
  split
  · exact proceed h
  · exact proceed h.withSched
  · exact issueCommand h.withSched
  · exact next (h.withSched.map State.blockReset fun _ _ _ => ⟨rfl, rfl, rfl⟩)
  · exact next (SameControl.deviceReset.symm.trans (h.withSched.trans .deviceReset))

end Agree

/-- Settles O59: the two runs agree operation by operation. -/
theorem controlIgnoresDevice : Obligations.ControlIgnoresDevice := by
  intro s w w' d p hw hw'
  have wf := (step_next hw).1
  rw [step_of_wellFormed wf] at hw
  rw [step_of_wellFormed (s := { s with dev := d, settlePending := p }) wf] at hw'
  have same := Agree.nextEvent (s := s) (s' := { s with dev := d, settlePending := p }) ⟨rfl, rfl, rfl⟩ w w' hw hw'
  exact ⟨same.ctrl, same.env, same.params⟩

end Sys2Proof.Machine
end

section
/-! SUPPORT. Runs of micro-steps over a transport that answers `ok`: what a bank select and the transfer behind it do
together, and the fragments of the setup and of the frame update (41_setup_sequencer.md R140; 43_scroll_sequencer.md R187). -/

namespace Sys2Proof.Machine

open Sys2Proof.Config

variable {s u w : State} {i : Instr} {l m : Label} {t : Table} {nxt : Option Label} {n k : Nat} {a b : Byte}
  {p : List Byte} {vs : List (Option Byte)} {d d' : Dev} {q q' : Bool} {evs evs' : List BusEvent}

/-! ### A payload stored, and the rest of the state -/

/-- The device's next contents depend on the device and the parameters alone. -/
theorem writePayload_dev_congr (hd : u.dev = s.dev) (hp : u.params = s.params) :
    (writePayload b n vs u).dev = (writePayload b n vs s).dev := by
  induction vs generalizing n s u with
  | nil => exact hd
  | cons v vs ih =>
    rw [writePayload, writePayload, hp]
    cases target s.params b n with
    | none => exact ih hd hp
    | some r => exact ih (by cases r <;> simp [writeTarget, hd]) (by simp [hp])

/-- A payload leaves `SETTLE_PENDING` alone where it reaches the shutdown register at S2 only (R245). -/
theorem writePayload_settlePending
    (h : ∀ k < vs.length, target s.params b (n + k) = some .shutdown → s.ctrl.seqPc = some .S2) :
    (writePayload b n vs s).settlePending = s.settlePending := by
  induction vs generalizing n s with
  | nil => rfl
  | cons v vs ih =>
    have h0 := h 0 (by simp)
    rw [writePayload]
    cases hr : target s.params b n with
    | none =>
      refine ih fun k hk => ?_
      have := h (k + 1) (by simpa using hk)
      rwa [show n + (k + 1) = n + 1 + k by omega] at this
    | some r =>
      rw [ih]
      · rw [settlePending_writeTarget]
        cases r <;> simp_all
      · intro k hk
        have := h (k + 1) (by simpa using hk)
        rw [show n + (k + 1) = n + 1 + k by omega] at this
        simpa using this

/-- A stored payload does not read ENV. -/
theorem writePayload_withEnv {e : Env} :
    writePayload b n vs { s with env := e } = { writePayload b n vs s with env := e } := by
  induction vs generalizing n s with
  | nil => rfl
  | cons v vs ih =>
    rw [writePayload, writePayload]
    cases target s.params b n with
    | none => exact ih
    | some r => rw [← ih]; cases r <;> rfl

theorem storeTransfer_withEnv {e : Env} :
    storeTransfer a vs { s with env := e } = { storeTransfer a vs s with env := e } := by
  unfold storeTransfer
  dsimp only
  split
  · rfl
  · cases s.dev.banksel with
    | none => rfl
    | some b => exact writePayload_withEnv

/-- A transfer writes the device and `SETTLE_PENDING` alone, whatever ENV holds. -/
theorem storeTransfer_takeAnswer {ev : BusEvent} : storeTransfer a vs (s.takeAnswer ev) =
    { s with
      dev := (storeTransfer a vs s).dev
      settlePending := (storeTransfer a vs s).settlePending
      env := (s.takeAnswer ev).env } := by
  have hc : (storeTransfer a vs s).ctrl = s.ctrl := storeTransfer_ctrl
  have hp : (storeTransfer a vs s).params = s.params := storeTransfer_params
  rw [← hc, ← hp]
  exact storeTransfer_withEnv

/-- What every register that a payload reaches leaves alone, the payload leaves alone. -/
theorem writePayload_keeps {β : Type} (P : Dev → β)
    (h : ∀ k < vs.length, ∀ r, target s.params b (n + k) = some r → ∀ v (u : State), P (writeTarget r v u).dev = P u.dev) :
    P (writePayload b n vs s).dev = P s.dev := by
  induction vs generalizing n s with
  | nil => rfl
  | cons v vs ih =>
    have tail : ∀ u : State, u.params = s.params → P (writePayload b (n + 1) vs u).dev = P u.dev := fun u hu =>
      ih fun k hk r hr => h (k + 1) (by simpa using hk) r (by
        rwa [show n + (k + 1) = n + 1 + k by omega, ← hu])
    rw [writePayload]
    cases hr : target s.params b n with
    | none => exact tail s rfl
    | some r => exact (tail _ (by simp)).trans (h 0 (by simp) r hr v s)

theorem Dev.eq_of_en {e : Memory (Option Byte)} (h : { d with en := e } = { d' with en := e }) :
    d = { d' with en := d.en } := by
  cases d; cases d'; simpa using h

theorem Dev.eq_of_col {e : Memory (Option Byte)} (h : { d with col := e } = { d' with col := e }) :
    d = { d' with col := d.col } := by
  cases d; cases d'; simpa using h

/-- The bank register is neither area's first address (R9). -/
theorem enableBase_ne_bankRegister {c : Params} (h : ParamFacts c) : c.enableBase ≠ c.bankRegister := fun e => by
  have hm := h.mask_fits
  have hin : inEnableArea c c.enableBase.toNat = true := inEnableArea_iff.2 ⟨le_rfl, by omega⟩
  rw [e, h.bank_not_enable] at hin
  cases hin

theorem colorBase_ne_bankRegister {c : Params} (h : ParamFacts c) : c.colorBase ≠ c.bankRegister := fun e => by
  have hin : inColorArea c c.colorBase.toNat = true := inColorArea_iff.2 ⟨le_rfl, by omega⟩
  rw [e, h.bank_not_color] at hin
  cases hin

/-- The enable bytes of a frame bank after a payload from `ENABLE_BASE` on. -/
theorem enableByte_writePayload (h : ParamFacts s.params) (hb : b = 0 ∨ b = 1) (hp : p.length ≤ s.params.enableRegCount)
    {c j : Nat} (hj : j < s.params.enableRegCount) :
    (writePayload b s.params.enableBase.toNat (p.map some) s).dev.enableByte c j =
      if c = b.toNat ∧ j < p.length then p[j]? else s.dev.enableByte c j := by
  have hfit := h.enable_fits
  have hlen : s.params.enableBase.toNat + (p.map some).length ≤ 256 := by simp; omega
  have hsmall : (Target.enable c j).small = true := by simp [Target.small]; omega
  have hreg : ∀ k < p.length, target s.params b (s.params.enableBase.toNat + k) = some (.enable b.toNat k) :=
    fun k hk => target_enable hb (by omega)
  change Dev.readTarget _ (.enable c j) = _
  split
  · rename_i hcj
    obtain ⟨rfl, hj⟩ := hcj
    rw [readTarget_writePayload_same hlen (by simpa using hj) (hreg j hj)]
    simp [hj]
  · rename_i hcj
    refine readTarget_writePayload_other hlen hsmall fun k hk e => hcj ?_
    rw [hreg k (by simpa using hk)] at e
    cases e
    exact ⟨rfl, by simpa using hk⟩

/-- The colour bytes of a frame bank after a payload from `COLOR_BASE` on. -/
theorem colorByte_writePayload (h : ParamFacts s.params) (hb : b = 0 ∨ b = 1) (hp : p.length = 144)
    {c j : Nat} (hj : j < 144) :
    (writePayload b s.params.colorBase.toNat (p.map some) s).dev.colorByte c j =
      if c = b.toNat then p[j]? else s.dev.colorByte c j := by
  have hfit := h.color_fits
  have hlen : s.params.colorBase.toNat + (p.map some).length ≤ 256 := by simp; omega
  have hsmall : (Target.color c j).small = true := by simp [Target.small]; omega
  have hreg : ∀ k < p.length, target s.params b (s.params.colorBase.toNat + k) = some (.color b.toNat k) :=
    fun k hk => target_color h hb (by omega)
  change Dev.readTarget _ (.color c j) = _
  split
  · rename_i hc
    subst hc
    rw [readTarget_writePayload_same hlen (by simp; omega) (hreg j (by omega))]
    simp [hp, hj]
  · rename_i hc
    refine readTarget_writePayload_other hlen hsmall fun k hk e => hc ?_
    rw [hreg k (by simpa using hk)] at e
    cases e
    rfl

/-- The state with bank `b` selected. -/
def State.selected (s : State) (b : Byte) : State := { s with dev := { s.dev with banksel := some b } }

/-! ### Runs -/

theorem microRun_succ (h : exec i s = .next w) : microRun i (n + 1) s = microRun i n w := by
  rw [microRun, h]

theorem microRun_add (h : microRun i k s = .next w) : microRun i (k + n) s = microRun i n w := by
  induction k generalizing s with
  | zero => cases h; rw [Nat.zero_add]
  | succ k ih =>
    rw [Nat.add_right_comm]
    rw [microRun] at h ⊢
    cases he : exec i s with
    | next v => rw [he] at h; exact ih h
    | fault f => rw [he] at h; cases h
    | refused r => rw [he] at h; cases h

theorem microRun_trans (h : microRun i k s = .next u) (h' : microRun i n u = .next w) :
    microRun i (k + n) s = .next w :=
  (microRun_add h).trans h'

theorem microRun_one (h : exec i s = .next w) : microRun i 1 s = .next w := microRun_succ h

/-- The state after micro-steps that made the outputs `evs` and left the device `d`, at the label `nxt` or at the end. -/
def State.ran (s : State) (d : Dev) (q : Bool) (evs : List BusEvent) (nxt : Option Label) : State :=
  { s with dev := d, settlePending := q, env := s.env.emitted evs }.goto nxt

theorem Env.emitted_append {e : Env} : (e.emitted evs).emitted evs' = e.emitted (evs ++ evs') := by
  simp [Env.emitted, List.drop_drop, Nat.add_assoc]

theorem State.ran_ran : (s.ran d q evs (some m)).ran d' q' evs' nxt = s.ran d' q' (evs ++ evs') nxt := by
  cases nxt <;> simp [State.ran, State.goto, Env.emitted_append]

/-- The command `i` stands at `l`, and the transport answers `ok` to its next `n` calls. -/
structure Goes (s : State) (i : Instr) (t : Table) (l : Label) (n : Nat) : Prop where
  runs : s.runsAt i l
  table : commandTable i = some t
  label : l ∈ t.labels
  facts : ParamFacts s.params
  answers : s.answersOk n

/-- `k` micro-steps from `s` leave the device `d` and make the outputs `evs`; they end at `nxt`, and where that is a label
the transport answers `ok` to the next `n` calls from there. -/
structure Covers (s : State) (i : Instr) (t : Table) (k n : Nat) (d : Dev) (q : Bool) (evs : List BusEvent)
    (nxt : Option Label) : Prop where
  run : microRun i k s = .next (s.ran d q evs nxt)
  goes : ∀ m, nxt = some m → Goes (s.ran d q evs nxt) i t m n

theorem Covers.trans {k' n' : Nat} (h : Covers s i t k n d q evs (some m))
    (h' : Covers (s.ran d q evs (some m)) i t k' n' d' q' evs' nxt) :
    Covers s i t (k + k') n' d' q' (evs ++ evs') nxt where
  run := State.ran_ran ▸ microRun_trans h.run h'.run
  goes := State.ran_ran ▸ h'.goes

namespace Goes

theorem nextAnswer (h : Goes s i t l (n + 1)) : s.env.nextAnswer = .ok := by
  have ha : s.env.answers.take (n + 1) = .ok :: List.replicate n .ok := h.answers
  cases hs : s.env.answers with
  | nil => simp [hs] at ha
  | cons r rs =>
    rw [hs, List.take_succ_cons, List.cons.injEq] at ha
    exact (nextAnswer_cons hs).trans ha.1

/-- Later on the way, after outputs that took `k` of the answers. -/
theorem ran (h : Goes s i t l (n + k)) (hk : evs.countP BusEvent.isCall = k) (hm : m ∈ t.labels) :
    Goes (s.ran d q evs (some m)) i t m n where
  runs := have ⟨busy, cmd, _, free⟩ := h.runs; ⟨busy, cmd, rfl, free⟩
  table := h.table
  label := hm
  facts := h.facts
  answers := by
    show (s.env.answers.drop (evs.countP BusEvent.isCall)).take n = _
    rw [hk, List.take_drop, Nat.add_comm, h.answers, List.drop_replicate, Nat.add_sub_cancel_right]

theorem next_mem (h : Goes s i t l n) (hm : nextLabel i l = some m) : m ∈ t.labels := nextLabel_mem h.table h.label hm

/-- A wait (R225). -/
theorem wait (h : Goes s i t l n) {ms : Nat} (ha : labelAction s l = some (.wait ms)) :
    Covers s i t 1 n s.dev s.settlePending [.wait ms] (nextLabel i l) where
  run := microRun_one (by rw [exec_perform h.table h.label h.runs ha]; rfl)
  goes := fun m hm => hm ▸ h.ran (k := 0) rfl (h.next_mem hm)

/-- A micro-step with a transfer that R66 accepts. -/
theorem exec_transfer (h : Goes s i t l (n + 1)) (ha : labelAction s l = some (.xfer a p))
    (hf : transferFault s.params s.dev.banksel a p.length = none) :
    exec i s = .next (s.ran (storeTransfer a (p.map some) s).dev
      (if l = .S5 then false else (storeTransfer a (p.map some) s).settlePending) [sent (a :: p)] (nextLabel i l)) := by
  have happ : applyTransfer a p (s.takeAnswer (sent (a :: p))) =
      .next (storeTransfer a (p.map some) (s.takeAnswer (sent (a :: p)))) := applyTransfer_next.2 ⟨hf, rfl⟩
  have henv : (s.takeAnswer (sent (a :: p))).env = s.env.emitted [sent (a :: p)] := by
    simp [State.takeAnswer, Env.emitted, BusEvent.isCall]
  rw [exec_perform h.table h.label h.runs ha, perform, xferStep, callTransport_ok h.nextAnswer, completeTransfer, happ]
  show Host.Outcome.next (((storeTransfer a (p.map some) (s.takeAnswer (sent (a :: p)))).settleAfter l).goto _) = _
  rw [storeTransfer_takeAnswer, henv]
  by_cases hl : l = .S5
  · simp only [State.settleAfter, if_pos hl]; rfl
  · simp only [State.settleAfter, if_neg hl]; rfl

/-- A bank select (R64). -/
theorem exec_select (h : Goes s i t l (n + 1)) (ha : labelAction s l = some (.send (selectBytes s.params b))) :
    exec i s = .next (s.ran (s.selected b).dev s.settlePending [sent [s.params.bankRegister, b]] (nextLabel i l)) := by
  have hl : l ≠ .S5 := by
    rintro rfl
    injection ha with ha
    injection ha with ha
    exact h.facts.bank_ne_shutdown ha.symm
  have hst : storeTransfer s.params.bankRegister ([b].map some) s = s.selected b := storeTransfer_select
  rw [h.exec_transfer (a := s.params.bankRegister) (p := [b]) ha transferFault_select, if_neg hl, hst]
  rfl

/-- A bank select and the transfer behind it: the payload lands in the bank `b` (R66, R130). -/
theorem select_transfer (h : Goes s i t l (n + 2)) (ha : labelAction s l = some (.send (selectBytes s.params b)))
    (hm : nextLabel i l = some m) (ha' : labelAction s m = some (.xfer a p)) (hne : a ≠ s.params.bankRegister)
    (hp : p ≠ [])
    (hk : ∀ k < p.length, ∃ r, target s.params b (a.toNat + k) = some r ∧ (r = .shutdown → m = .S2 ∨ m = .S5)) :
    Covers s i t 2 n (writePayload b a.toNat (p.map some) (s.selected b)).dev (if m = .S5 then false else s.settlePending)
      [sent [s.params.bankRegister, b], sent (a :: p)] (nextLabel i m) := by
  have first := exec_select (n := n + 1) h ha
  rw [hm] at first
  set u := s.ran (s.selected b).dev s.settlePending [sent [s.params.bankRegister, b]] (some m) with hu
  have hgo : Goes u i t m (n + 1) := ran (n := n + 1) h rfl (h.next_mem hm)
  have hact : labelAction u m = some (.xfer a p) := by rw [← ha']; cases m <;> rfl
  have hfault : transferFault u.params u.dev.banksel a p.length = none :=
    (transferFault_none_iff hgo.facts hne).2 ⟨by simpa using hp, b, rfl, fun k hlt => by
      obtain ⟨r, hr, -⟩ := hk k hlt
      exact hr ▸ rfl⟩
  have hstore : storeTransfer a (p.map some) u = writePayload b a.toNat (p.map some) u := storeTransfer_relative hne rfl
  have hdev : (writePayload b a.toNat (p.map some) u).dev = (writePayload b a.toNat (p.map some) (s.selected b)).dev :=
    writePayload_dev_congr rfl rfl
  have hsettle : (if m = .S5 then false else (writePayload b a.toNat (p.map some) u).settlePending) =
      if m = .S5 then false else s.settlePending := by
    split
    · rfl
    · rename_i h5
      refine writePayload_settlePending fun k hlt hr => ?_
      obtain ⟨r, hr', hs⟩ := hk k (by simpa using hlt)
      obtain rfl : r = .shutdown := Option.some.inj (hr'.symm.trans hr)
      exact congrArg some ((hs rfl).resolve_right h5)
  have second := hgo.exec_transfer hact hfault
  rw [hstore, hdev, hsettle, hu, State.ran_ran] at second
  exact ⟨microRun_trans (microRun_one first) (microRun_one second),
    fun m' hm' => hm' ▸ h.ran (k := 2) rfl (hgo.next_mem hm')⟩

/-- The config bank selected and one of its registers written (R140, R187). -/
theorem config_write (h : Goes s i t l (n + 2)) {v : Byte} {r : Target}
    (ha : labelAction s l = some (.send (selectBytes s.params s.params.configBank)))
    (hm : nextLabel i l = some m) (ha' : labelAction s m = some (.xfer a [v])) (hne : a ≠ s.params.bankRegister)
    (hr : target s.params s.params.configBank a.toNat = some r) (hs : r = .shutdown → m = .S2 ∨ m = .S5) :
    Covers s i t 2 n (writeTarget r (some v) (s.selected s.params.configBank)).dev
      (if m = .S5 then false else s.settlePending)
      [sent [s.params.bankRegister, s.params.configBank], sent [a, v]] (nextLabel i m) := by
  have hrun := h.select_transfer ha hm ha' hne (by simp) fun k hk => by
    obtain rfl : k = 0 := by simpa using hk
    exact ⟨r, hr, hs⟩
  have hpay : writePayload s.params.configBank a.toNat ([v].map some) (s.selected s.params.configBank) =
      writeTarget r (some v) (s.selected s.params.configBank) := by
    simp [writePayload, State.selected, hr]
  rwa [hpay] at hrun

/-- A frame bank selected and a block of its registers written: the payload is no byte of S5. -/
theorem block_write (h : Goes s i t l (n + 2)) (ha : labelAction s l = some (.send (selectBytes s.params b)))
    (hm : nextLabel i l = some m) (ha' : labelAction s m = some (.xfer a p)) (hne : a ≠ s.params.bankRegister)
    (hp : 2 ≤ p.length) (hk : ∀ k < p.length, ∃ r, target s.params b (a.toNat + k) = some r ∧ r ≠ .shutdown) :
    Covers s i t 2 n (writePayload b a.toNat (p.map some) (s.selected b)).dev s.settlePending
      [sent [s.params.bankRegister, b], sent (a :: p)] (nextLabel i m) := by
  have hS5 : m ≠ .S5 := by
    rintro rfl
    cases ha'
    simp at hp
  have hrun := h.select_transfer ha hm ha' hne (by rintro rfl; simp at hp) fun k hlt => by
    obtain ⟨r, hr, hs⟩ := hk k hlt
    exact ⟨r, hr, fun e => absurd e hs⟩
  rwa [if_neg hS5] at hrun

/-- A frame bank selected and its enable mask written (R140). -/
theorem mask_write (h : Goes s i t l (n + 2)) (hb : b = 0 ∨ b = 1)
    (ha : labelAction s l = some (.send (selectBytes s.params b)))
    (hm : nextLabel i l = some m) (ha' : labelAction s m = some (.send (enableMaskBytes s.params))) :
    ∃ en, Covers s i t 2 n { s.dev with banksel := some b, en := en } s.settlePending
        [sent [s.params.bankRegister, b], sent (s.params.enableBase :: List.replicate 17 0xFF)] (nextLabel i m) ∧
      ∀ c, ∀ j < s.params.enableRegCount, ({ s.dev with en := en } : Dev).enableByte c j =
        if c = b.toNat ∧ j < 17 then some 0xFF else s.dev.enableByte c j := by
  have hfit := h.facts.mask_fits
  obtain ⟨p, hp⟩ : ∃ p : List Byte, p = List.replicate 17 0xFF := ⟨_, rfl⟩
  have hlen : p.length = 17 := by simp [hp]
  have hreg : ∀ k < p.length, target s.params b (s.params.enableBase.toNat + k) = some (.enable b.toNat k) :=
    fun k hk => target_enable hb (by omega)
  have hrun := h.block_write (p := p) ha hm (hp ▸ ha') (enableBase_ne_bankRegister h.facts) (by omega)
    fun k hk => ⟨_, hreg k hk, nofun⟩
  have hdev := writePayload_keeps (s := s.selected b) (vs := p.map some) (b := b) (n := s.params.enableBase.toNat)
    (fun d : Dev => { d with en := [] }) fun k hk r hr v u => by
      cases (hreg k (by simpa using hk)).symm.trans hr
      rfl
  rw [← hp]
  refine ⟨(writePayload b s.params.enableBase.toNat (p.map some) (s.selected b)).dev.en, ?_, fun c j hj => ?_⟩
  · exact Dev.eq_of_en hdev ▸ hrun
  · have hread := enableByte_writePayload (s := s.selected b) (p := p) h.facts hb (hlen.trans_le hfit) (c := c) hj
    rw [hlen] at hread
    refine hread.trans ?_
    split
    · rename_i hcj; rw [hp, List.getElem?_replicate, if_pos hcj.2]
    · rfl

/-- A frame bank selected and its colour bytes written (R187). -/
theorem color_write (h : Goes s i t l (n + 2)) (hb : b = 0 ∨ b = 1)
    (ha : labelAction s l = some (.send (selectBytes s.params b)))
    (hm : nextLabel i l = some m) (ha' : labelAction s m = some (.xfer s.params.colorBase p)) (hp : p.length = 144) :
    ∃ col, Covers s i t 2 n { s.dev with banksel := some b, col := col } s.settlePending
        [sent [s.params.bankRegister, b], sent (s.params.colorBase :: p)] (nextLabel i m) ∧
      ∀ c, ∀ j < 144, ({ s.dev with col := col } : Dev).colorByte c j =
        if c = b.toNat then p[j]? else s.dev.colorByte c j := by
  have hreg : ∀ k < p.length, target s.params b (s.params.colorBase.toNat + k) = some (.color b.toNat k) :=
    fun k hk => target_color h.facts hb (by omega)
  have hrun := h.block_write ha hm ha' (colorBase_ne_bankRegister h.facts) (by omega) fun k hk => ⟨_, hreg k hk, nofun⟩
  have hdev := writePayload_keeps (s := s.selected b) (vs := p.map some) (b := b) (n := s.params.colorBase.toNat)
    (fun d : Dev => { d with col := [] }) fun k hk r hr v u => by
      cases (hreg k (by simpa using hk)).symm.trans hr
      rfl
  refine ⟨(writePayload b s.params.colorBase.toNat (p.map some) (s.selected b)).dev.col, ?_, fun c j hj => ?_⟩
  · exact Dev.eq_of_col hdev ▸ hrun
  · exact colorByte_writePayload (s := s.selected b) h.facts hb hp hj

/-- An action of CTRL's own. -/
theorem exec_local (h : Goes s i t l n) {act : Action} (ha : labelAction s l = some act)
    (hu : localEffect s act = some u) (hk : act ≠ .testEnd) : exec i s = .next (u.goto (nextLabel i l)) := by
  rw [exec_perform h.table h.label h.runs ha]
  cases act <;> cases hu <;> first | rfl | exact absurd rfl hk

/-! ### Fragments -/

/-- S1 to S5 (R140, R141). -/
theorem reset_run (h : Goes s i t .S1 (n + 4)) :
    Covers s i t 5 n { s.dev with banksel := some s.params.configBank, shutdown := some 0x01 } false
      (resetEvents s.params) (nextLabel i .S5) := by
  have off := h.config_write (m := .S2) rfl rfl rfl h.facts.bank_ne_shutdown.symm (target_shutdown h.facts)
    fun _ => .inl rfl
  have settle := off.trans ((off.goes .S3 rfl).wait (ms := 10) rfl)
  exact settle.trans ((settle.goes .S4 rfl).config_write (m := .S5) rfl rfl rfl h.facts.bank_ne_shutdown.symm
    (target_shutdown h.facts) fun _ => .inr rfl)

/-- S6 to S11 (R140, R142). -/
theorem configure_run (h : Goes s i t .S6 (n + 6)) :
    Covers s i t 6 n { s.dev with
        banksel := some s.params.configBank
        frame := some 0x00
        mode := some s.params.pictureMode
        audioSync := some 0x00 } s.settlePending
      (configureEvents s.params) (nextLabel i .S11) := by
  have frame := h.config_write (m := .S7) rfl rfl rfl h.facts.bank_ne_frame.symm (target_frame h.facts) nofun
  have mode := frame.trans ((frame.goes .S8 rfl).config_write (m := .S9) rfl rfl rfl h.facts.bank_ne_mode.symm
    (target_mode h.facts) nofun)
  exact mode.trans ((mode.goes .S10 rfl).config_write (m := .S11) rfl rfl rfl h.facts.bank_ne_audio.symm
    (target_audioSync h.facts) nofun)

/-- S12 to S15 (R140, R143). -/
theorem enable_run (h : Goes s i t .S12 (n + 4)) :
    ∃ en, Covers s i t 4 n { s.dev with banksel := some 0x01, en := en } s.settlePending
        (enableEvents s.params) (nextLabel i .S15) ∧
      ∀ b < 2, ∀ j < s.params.enableRegCount,
        ({ s.dev with en := en } : Dev).enableByte b j = if j < 17 then some 0xFF else s.dev.enableByte b j := by
  obtain ⟨en, first, hen⟩ := h.mask_write (m := .S13) (.inl rfl) rfl rfl rfl
  obtain ⟨en', second, hen'⟩ := (first.goes .S14 rfl).mask_write (m := .S15) (.inr rfl) rfl rfl rfl
  refine ⟨en', first.trans second, fun b hb j hj => ?_⟩
  refine (hen' b j hj).trans ((if_congr Iff.rfl rfl (hen b j hj)).trans ?_)
  interval_cases b <;> simp

theorem toNat_activeByte : ∀ a : U1, (a.setWidth 8 : Byte).toNat = a.toNat := by decide

theorem bufferBytes_length {f : ByteMemory} : (bufferBytes f).length = 144 := by simp [bufferBytes, pbufLen]

theorem activeByte_cases : ∀ a : U1, (a.setWidth 8 : Byte) = 0 ∨ (a.setWidth 8 : Byte) = 1 := by decide

theorem bufferBytes_getElem? {f : ByteMemory} {j : Nat} (hj : j < 144) : (bufferBytes f)[j]? = some (bufferByte f j) := by
  simp [bufferBytes, pbufLen, hj]

/-- U1 to U6 (R187): the mapped frame goes to bank `ACTIVE`, which becomes the displayed one. -/
theorem update_run (h : Goes s i t .U1 (n + 4)) :
    ∃ col, microRun i 6 s = .next ((s.mapBuffer.ran { s.dev with
          banksel := some s.params.configBank
          frame := some (s.ctrl.active.setWidth 8)
          col := col } s.settlePending
        (updateEvents s.params (s.ctrl.active.setWidth 8) (bufferBytes (mapFrame s.ctrl.lframe)))
        (some .U6)).toggleActive.goto (nextLabel i .U6)) ∧
      ∀ c, ∀ j < 144, ({ s.dev with col := col } : Dev).colorByte c j =
        if c = s.ctrl.active.toNat then some (bufferByte (mapFrame s.ctrl.lframe) j) else s.dev.colorByte c j := by
  have mapped : exec i s = .next (s.mapBuffer.ran s.dev s.settlePending [] (some .U2)) := h.exec_local rfl rfl nofun
  have buffer : Goes s.mapBuffer i t .U1 (n + 4) := { h with }
  have at2 : Goes (s.mapBuffer.ran s.dev s.settlePending [] (some .U2)) i t .U2 (n + 4) :=
    buffer.ran (k := 0) rfl (h.next_mem rfl)
  obtain ⟨col, colors, hcol⟩ := at2.color_write (m := .U3) (b := s.ctrl.active.setWidth 8) (activeByte_cases _) rfl rfl rfl
    bufferBytes_length
  have shown := colors.trans ((colors.goes .U4 rfl).config_write (m := .U5) (v := s.ctrl.active.setWidth 8) rfl rfl rfl
    h.facts.bank_ne_frame.symm (target_frame h.facts) nofun)
  have toggled := (shown.goes .U6 rfl).exec_local (act := .toggleActive) rfl rfl nofun
  refine ⟨col, microRun_trans (microRun_one mapped) (microRun_trans shown.run (microRun_one toggled)), fun c j hj => ?_⟩
  exact (hcol c j hj).trans (if_congr (by rw [toNat_activeByte]) (bufferBytes_getElem? hj) rfl)

end Goes

end Sys2Proof.Machine
end

section
/-! SUPPORT. SETUP and PRESENT from acceptance to their end (41_setup_sequencer.md R144, R148; 43_scroll_sequencer.md R188),
and the frame that SETUP, LOAD_FRAME and PRESENT show (10_state.md R40). -/

namespace Sys2Proof.Machine

open Sys2Proof.Config

variable {s u w : State} {i : Instr} {l : Label} {t : Table} {n : Nat}

/-! ### Acceptance -/

/-- An accepted command stands at its first step. -/
theorem goes_of_admits (h : s.admits i) (ht : commandTable i = some t) (hl : firstStep i = some l)
    (hp : ParamFacts s.params) (ha : s.answersOk n) : Goes (s.acceptedBy i) i t l n where
  runs := by
    have hfst := (table_first ht).trans hl
    rcases State.acceptedBy_of_table (s := s) ht with e | e <;> rw [e] <;> exact ⟨rfl, rfl, hfst, h.2⟩
  table := ht
  label := first_mem ht hl
  facts := by simpa using hp
  answers := by
    rcases State.acceptedBy_of_table (s := s) ht with e | e <;> rw [e] <;> exact ha

/-! ### Whole commands -/

/-- A command that began in `IDLE` ends there: `PHASE` is what it was. -/
theorem State.eq_of_end_idle {v : State} (hs : s.ctrl.phase = .idle) (hv : v.ctrl.phase = s.ctrl.phase)
    (hc : u.ctrl = { v.ctrl with phase := .idle }) (hd : u.dev = v.dev) (hq : u.settlePending = v.settlePending)
    (he : u.env = v.env) (hp : u.params = v.params) : u = v := by
  obtain ⟨c, d, q, e, p⟩ := u
  obtain ⟨c', d', q', e', p'⟩ := v
  simp only at hv hc hd hq he hp
  rw [hc, hd, hq, he, hp, ← hs, ← hv]

/-- SETUP, from acceptance to `IDLE` (R140, R144, R148). -/
theorem microRun_setup (hp : ParamFacts s.params) (ha : s.answersOk 14) (h : s.admits .setup) :
    ∃ en, microRun .setup 17 s = .next { s with
        ctrl := { s.ctrl with cmd := some .setup, seqPc := none, ready := 1 }
        dev := { s.dev with
          banksel := some 0x01
          shutdown := some 0x01
          frame := some 0x00
          mode := some s.params.pictureMode
          audioSync := some 0x00
          en := en }
        settlePending := false
        env := s.env.commanded (resetEvents s.params ++ configureEvents s.params ++ enableEvents s.params) } ∧
      ∀ b < 2, ∀ j < s.params.enableRegCount,
        ({ s.dev with en := en } : Dev).enableByte b j = if j < 17 then some 0xFF else s.dev.enableByte b j := by
  have idle := phase_of_firstFailing h.1
  have start := goes_of_admits (n := 0 + 4 + 6 + 4) h (t := setupTable) rfl rfl hp ha
  have reset := start.reset_run
  have configured := reset.trans (reset.goes .S6 rfl).configure_run
  obtain ⟨en, enabled, hen⟩ := (configured.goes .S12 rfl).enable_run
  have all := configured.trans enabled
  have marked := (all.goes .S16 rfl).exec_local (act := .markReady) rfl rfl nofun
  have run := microRun_trans (microRun_one (exec_admitted rfl h.1)) (microRun_trans all.run (microRun_one marked))
  refine ⟨en, run.trans (congrArg _ ?_), hen⟩
  exact State.eq_of_end_idle idle rfl rfl rfl rfl rfl rfl

/-- PRESENT, from acceptance to `IDLE` (R187, R188). -/
theorem microRun_present (hp : ParamFacts s.params) (ha : s.answersOk 4) (h : s.admits .present) :
    ∃ col, microRun .present 7 s = .next { s with
        ctrl := { s.ctrl with
          cmd := some .present
          seqPc := none
          pbuf := mapFrame s.ctrl.lframe
          active := s.ctrl.active ^^^ 1 }
        dev := { s.dev with
          banksel := some s.params.configBank
          frame := some (s.ctrl.active.setWidth 8)
          col := col }
        env := s.env.commanded
          (updateEvents s.params (s.ctrl.active.setWidth 8) (bufferBytes (mapFrame s.ctrl.lframe))) } ∧
      ∀ c, ∀ j < 144, ({ s.dev with col := col } : Dev).colorByte c j =
        if c = s.ctrl.active.toNat then some (bufferByte (mapFrame s.ctrl.lframe) j) else s.dev.colorByte c j := by
  have idle := phase_of_firstFailing h.1
  have start := goes_of_admits (n := 0 + 4) h (t := presentTable) rfl rfl hp ha
  obtain ⟨col, updated, hcol⟩ := start.update_run
  refine ⟨col, (microRun_trans (microRun_one (exec_admitted rfl h.1)) updated).trans (congrArg _ ?_), hcol⟩
  exact State.eq_of_end_idle idle rfl rfl rfl rfl rfl rfl

/-! ### The displayed frame -/

theorem answersOk_mono {m : Nat} (h : s.answersOk n) (hm : m ≤ n) : s.answersOk m := by
  have htake : (s.env.answers.take n).take m = s.env.answers.take m := by rw [List.take_take, min_eq_left hm]
  show s.env.answers.take m = _
  rw [← htake, h, List.take_replicate, min_eq_left hm]

/-- The answers left after outputs that took `m` of them. -/
theorem answersOk_emitted {m : Nat} {evs : List BusEvent} (h : s.answersOk (m + n)) (hm : evs.countP BusEvent.isCall = m)
    (hu : u.env.answers = (s.env.emitted evs).answers) : u.answersOk n := by
  show u.env.answers.take n = _
  rw [hu]
  show (s.env.answers.drop (evs.countP BusEvent.isCall)).take n = _
  rw [hm, List.take_drop, h, List.drop_replicate, Nat.add_sub_cancel_left]

theorem firstFailing_present {c : Ctrl} (hp : c.phase = .idle) (hb : c.bound = 1) (hr : c.ready = 1) :
    firstFailing .present c = none := by
  simp [firstFailing_eq, hp, hb, hr, isReservedOpcode, illegalOperands]

theorem idx_le {x y : Nat} (hx : x < 17) (hy : y < 7) : idx x y ≤ 134 := by
  unfold idx idxInt; split_ifs <;> omega

theorem getLsbD_ones {k : Nat} (hk : k < 8) : (0xFF : Byte).getLsbD k = true := by
  interval_cases k <;> rfl

/-- A configured device shows the frame bank that its frame register names (R40). -/
theorem displayedBank_of_configured {a : U1} (h : Configured s) (hf : s.dev.frame = some (a.setWidth 8)) :
    displayedBank s = some a.toNat := by
  have ha : ∀ a : U1, a = 0 ∨ a = 1 := by decide
  rcases ha a with rfl | rfl <;>
    simp [displayedBank, h.shutdown, h.mode, h.audioSync, h.settled, hf, shutdownOnValue, audioSyncOffValue]

/-- With every enable bit set, an LED shows its colour byte in that bank (R39, R40). -/
theorem disp_of_configured {a : U1} {k : Nat} (h : Configured s) (hf : s.dev.frame = some (a.setWidth 8))
    (hc : 17 ≤ s.params.enableRegCount) (hk : k < 136) : disp s k = s.dev.colorByte a.toNat k := by
  have he := h.enabled a.toNat a.isLt (k / 8) (by omega)
  have hin : ¬ k / 8 ≥ s.params.enableRegCount := by omega
  have hbit : (0xFF : Byte).getLsbD (k % 8) = true := getLsbD_ones (Nat.mod_lt k (by omega))
  unfold disp
  rw [displayedBank_of_configured h hf]
  dsimp only
  rw [if_neg hin, he]
  exact if_pos hbit

/-- SETUP leaves a configured device and a block that admits PRESENT (R144, R148). -/
theorem configured_of_setup (hp : ParamFacts s.params) (ha : s.answersOk (14 + n)) (h : s.admits .setup) :
    ∃ w, microRun .setup 17 s = .next w ∧ Configured w ∧ w.params = s.params ∧ w.ctrl.phase = .idle ∧
      w.ctrl.bound = 1 ∧ w.ctrl.ready = 1 ∧ w.env.hung = false ∧ w.answersOk n := by
  obtain ⟨en, run, hen⟩ := microRun_setup hp (answersOk_mono ha (by omega)) h
  have enabled : ∀ b < 2, ∀ j < 17, ({ s.dev with en := en } : Dev).enableByte b j = some 0xFF := fun b hb j hj => by
    rw [hen b hb j (hj.trans_le hp.mask_fits), if_pos hj]
  have idle := phase_of_firstFailing h.1
  have bound := bound_of_firstFailing h.1 rfl
  exact ⟨_, run, ⟨rfl, rfl, rfl, rfl, enabled⟩, rfl, idle, bound, rfl, h.2, answersOk_emitted (m := 14) ha rfl rfl⟩

/-- PRESENT on a configured device shows the logical frame (R40, R165, R187). -/
theorem present_shows (hp : ParamFacts s.params) (ha : s.answersOk 4) (h : s.admits .present) (hc : Configured s) :
    ∃ w, microRun .present 7 s = .next w ∧ w.ctrl.phase = .idle ∧
      ∀ x < 17, ∀ y < 7, displayedPixel w x y = some (frameCell s.ctrl.lframe x y) := by
  obtain ⟨col, run, hcol⟩ := microRun_present hp ha h
  have idle := phase_of_firstFailing h.1
  refine ⟨_, run, idle, fun x hx y hy => ?_⟩
  have hidx := idx_le hx hy
  have hcell := hcol s.ctrl.active.toNat (idx x y) (by omega)
  rw [if_pos rfl, bufferByte_mapFrame hx hy] at hcell
  have shown := disp_of_configured (k := idx x y) (s := { s with dev := { s.dev with
      banksel := some s.params.configBank, frame := some (s.ctrl.active.setWidth 8), col := col } })
    ⟨hc.shutdown, hc.mode, hc.audioSync, hc.settled, hc.enabled⟩ rfl hp.mask_fits (by omega)
  exact shown.trans hcell

/-- Settles O37: SETUP configures the device, LOAD_FRAME sets the logical frame, and PRESENT shows it. -/
theorem loadedFrameIsDisplayed : Obligations.LoadedFrameIsDisplayed := by
  intro s f hwf ha h hf
  have facts := paramFacts hwf
  obtain ⟨w, setup, configured, hp, idle, bound, ready, free, answers⟩ := configured_of_setup (n := 4) facts ha h
  have admits : (w.admitted.loadFrame f).admits .present := ⟨firstFailing_present idle bound ready, free⟩
  obtain ⟨w', present, idle', shows⟩ := present_shows (s := w.admitted.loadFrame f) (hp ▸ facts) answers admits
    ⟨configured.shutdown, configured.mode, configured.audioSync, configured.settled, configured.enabled⟩
  refine ⟨w, _, w', setup, exec_loadFrame idle hf, present, idle', fun x hx y hy => ?_⟩
  rw [shows x hx y hy, State.loadFrame_lframe, frameCell_frameOfBytes_eq_getElem? hf hx hy]

end Sys2Proof.Machine
end

section
/-! SUPPORT. Every step keeps the buffers and the device's arrays in canonical form (20_memory.md R60, R62). -/

namespace Sys2Proof.Machine

open Sys2Proof.Config

variable {s u w : State} {i : Instr} {l : Label} {nxt : Option Label} {act : Action}

namespace CanonicalMemories

/-! ### The invariant along the operations -/

theorem takeAnswer {ev : BusEvent} (h : CanonicalMemories s) : CanonicalMemories (s.takeAnswer ev) := { h with }

theorem setOpened (h : CanonicalMemories s) : CanonicalMemories s.setOpened := { h with }

theorem setBound (h : CanonicalMemories s) : CanonicalMemories s.setBound := { h with }

theorem goto (h : CanonicalMemories s) : CanonicalMemories (s.goto nxt) := by
  cases nxt <;> exact { h with }

theorem settleAfter (h : CanonicalMemories s) : CanonicalMemories (s.settleAfter l) := by
  unfold State.settleAfter; split <;> exact { h with }

theorem enterSetup (h : CanonicalMemories s) : CanonicalMemories (s.enterSetup nxt) := by
  unfold State.enterSetup; split <;> exact { h with }

theorem raiseTransfer (h : CanonicalMemories s) : CanonicalMemories (s.raiseTransfer l) := by
  unfold State.raiseTransfer; split <;> exact { h with }

/-- `map` fills a fresh buffer at mapped indices only (R161, R163). -/
theorem mapBuffer (h : CanonicalMemories s) : CanonicalMemories s.mapBuffer :=
  { h with pbuf_wf := mapFrame_wf, pbuf_keys := mapFrame_keys }

/-- `render` paints a fresh frame inside the window only (R182, R185). -/
theorem renderFrame (h : CanonicalMemories s) : CanonicalMemories s.renderFrame :=
  have ⟨wf, keys⟩ := FrameOk.render s.params (s.ctrl.offset + windowWidth).toInt
  { h with lframe_wf := wf, lframe_keys := keys }

theorem loadFrame {f : List Byte} (h : CanonicalMemories s) : CanonicalMemories (s.loadFrame f) :=
  have ⟨wf, keys⟩ := FrameOk.frameOfBytes f
  { h with lframe_wf := wf, lframe_keys := keys }

/-- The device at power-on lists no key (R42). -/
theorem deviceReset (h : CanonicalMemories s) : CanonicalMemories s.deviceReset := by
  unfold State.deviceReset
  split
  · exact h
  · exact { h with en_wf := Memory.wf_nil, col_wf := Memory.wf_nil, en_keys := nofun, col_keys := nofun }

/-- CTRL's reset values list no key (R22). -/
theorem blockReset (h : CanonicalMemories s) : CanonicalMemories s.blockReset :=
  { h with lframe_wf := Memory.wf_nil, pbuf_wf := Memory.wf_nil, lframe_keys := nofun, pbuf_keys := nofun }

/-- A transfer that returned `err` reaches the registers that the completed one reaches (R72). -/
theorem havocTransfer {a : Byte} {p : List Byte} (h : CanonicalMemories s)
    (hf : transferFault s.params s.dev.banksel a p.length = none) : CanonicalMemories (havocTransfer a p s) :=
  h.storeTransfer (by simpa using hf)

/-! ### One step of the machine -/

/-- Of the actions without a transport call, two write a buffer. -/
theorem localEffect (h : CanonicalMemories s) (hu : localEffect s act = some u) : CanonicalMemories u := by
  cases act with
  | mapBuffer => cases hu; exact h.mapBuffer
  | renderFrame => cases hu; exact h.renderFrame
  | _ => cases hu <;> exact { h with }

/-- A micro-step keeps the canonical form, whatever the transport answers. -/
theorem performed (h : CanonicalMemories s) (hp : Performed l act nxt s w) : CanonicalMemories w := by
  cases hp with
  | stored _ _ hf => exact (h.takeAnswer.storeTransfer (by simpa using hf)).settleAfter.goto
  | failed _ _ hf => exact (h.takeAnswer.havocTransfer hf).raiseTransfer
  | opened => exact h.takeAnswer.setOpened.goto
  | bound => exact h.takeAnswer.setBound.enterSetup.goto
  | localStep hu => exact (h.localEffect hu).goto
  | hang | openFailed | bindFailed | finish => exact { h with }

/-- Of the commands accepted, LOAD_FRAME alone writes a buffer. -/
theorem acceptedBy (h : CanonicalMemories s) : CanonicalMemories (s.acceptedBy i) := by
  cases i with
  | loadFrame f => exact loadFrame (s := s.admitted) { h with }
  | _ => exact { h with }

theorem exec (h : CanonicalMemories s) (hx : exec i s = .next w) : CanonicalMemories w := by
  cases hi : isHostCommand i with
  | false =>
    obtain ⟨a, p, -, hf, rfl⟩ := exec_wire_next hi hx
    exact h.storeTransfer (by simpa using hf)
  | true =>
    rcases exec_next hi hx with hx | ⟨-, rfl⟩
    · cases hx with
      | refused => exact { h with }
      | accepted => exact h.acceptedBy
      | waiting => exact h
      | step _ _ _ _ _ _ hp => exact h.performed hp
    · exact { h with }

theorem of_sameButInputs (h : CanonicalMemories s) (hs : SameButInputs s u) : CanonicalMemories u :=
  h.of_eq (by rw [hs.ctrl]) (by rw [hs.ctrl]) (by rw [hs.dev]) (by rw [hs.dev]) hs.params

end CanonicalMemories

/-- Settles O53, over the ways a step can answer a next state. -/
theorem canonicalMemoriesKept : Obligations.CanonicalMemoriesKept := by
  intro s w h hstep
  cases (step_next hstep).2 with
  | blockReset => exact (h.of_sameButInputs SameButInputs.refl.withSched).blockReset
  | deviceReset => exact (h.of_sameButInputs SameButInputs.refl.withSched).deviceReset
  | quiet hs => exact h.of_sameButInputs hs
  | refused hs => exact { h.of_sameButInputs hs with }
  | executed hs _ _ _ hx => exact (h.of_sameButInputs hs).exec hx
  | continued hs _ _ hx => exact (h.of_sameButInputs hs).exec hx

end Sys2Proof.Machine
end

section
/-! SUPPORT. The banks' addresses (20_memory.md R62, R63), and what a stored transfer leaves in the device and in
`SETTLE_PENDING` (R64, R66, R67; 70_reset_and_hazards.md R245). -/

namespace Sys2Proof.Machine

open Sys2Proof.Config

variable {s : State} {c : Params} {i : Instr} {a b : Byte} {n : Nat} {t : Target} {p : List Byte}
  {vs : List (Option Byte)}

/-! ### The banks' addresses -/

/-- The addresses of a frame bank (R62). -/
theorem target_frameBank_iff (h : ParamFacts c) (hb : b = 0 ∨ b = 1) :
    target c b n = some t ↔
      (∃ j < c.enableRegCount, n = c.enableBase.toNat + j ∧ t = .enable b.toNat j) ∨
      (∃ k < 144, n = c.colorBase.toNat + k ∧ t = .color b.toNat k) := by
  constructor
  · intro ht
    rw [target_frameBank hb, frameTarget] at ht
    split_ifs at ht with he hc
    · have := inEnableArea_iff.1 he
      exact .inl ⟨n - c.enableBase.toNat, by omega, by omega, (Option.some.inj ht).symm⟩
    · have := inColorArea_iff.1 hc
      exact .inr ⟨n - c.colorBase.toNat, by omega, by omega, (Option.some.inj ht).symm⟩
  · rintro (⟨j, hj, rfl, rfl⟩ | ⟨k, hk, rfl, rfl⟩)
    · exact target_enable hb hj
    · exact target_color h hb hk

/-- The addresses of the config bank (R63). -/
theorem target_configBank_iff (h : ParamFacts c) :
    target c c.configBank n = some t ↔
      (n = c.modeRegister.toNat ∧ t = .mode) ∨ (n = c.frameRegister.toNat ∧ t = .frame) ∨
      (n = c.audioSyncRegister.toNat ∧ t = .audioSync) ∨ (n = c.shutdownRegister.toNat ∧ t = .shutdown) := by
  constructor
  · intro ht
    rw [target_configBank h, configTarget] at ht
    split_ifs at ht <;> cases ht <;> simp [*]
  · rintro (⟨rfl, rfl⟩ | ⟨rfl, rfl⟩ | ⟨rfl, rfl⟩ | ⟨rfl, rfl⟩)
    exacts [target_mode h, target_frame h, target_audioSync h, target_shutdown h]

/-- Settles O7: the address map, bank by bank. -/
theorem bankAddressMaps : Obligations.BankAddressMaps := fun _ hp =>
  ⟨fun _ hb _ _ => target_frameBank_iff (paramFacts hp) hb, fun _ _ => target_configBank_iff (paramFacts hp)⟩

/-! ### The bank register -/

/-- Settles O8: R66's checks pass under any selected bank, and the one byte is stored in `BANKSEL`. -/
theorem bankRegisterIsGlobal : Obligations.BankRegisterIsGlobal := fun _ _ =>
  applyTransfer_next.2 ⟨transferFault_select, storeTransfer_select.symm⟩

/-! ### A stored payload -/

/-- A payload sets `SETTLE_PENDING` exactly where it writes 0x00 to the shutdown register at a label other than S2 (R245). -/
theorem settlePending_writePayload :
    (writePayload b n vs s).settlePending = true ↔ s.settlePending = true ∨ (s.ctrl.seqPc ≠ some .S2 ∧
      ∃ k, vs[k]? = some (some 0x00) ∧ target s.params b (n + k) = some .shutdown) := by
  induction vs generalizing n s with
  | nil => simp [writePayload]
  | cons v vs ih =>
    have hcons : (∃ k, (v :: vs)[k]? = some (some 0x00) ∧ target s.params b (n + k) = some .shutdown) ↔
        (v = some 0x00 ∧ target s.params b n = some .shutdown) ∨
        ∃ k, vs[k]? = some (some 0x00) ∧ target s.params b (n + 1 + k) = some .shutdown := by
      rw [← Nat.or_exists_add_one]
      simp [Nat.add_assoc, Nat.add_comm 1]
    rw [writePayload, ih, hcons]
    cases hr : target s.params b n with
    | none => simp
    | some r =>
      simp only [settlePending_writeTarget, writeTarget_ctrl, writeTarget_params]
      cases r <;> simp [shutdownOffValue]
      case shutdown => tauto

/-- What a bank-relative transfer to address `a` leaves in bank `b`: each byte in the register that its address names, and
every other register as it was (R66, R67, R245). -/
structure Stored (s w : State) (a b : Byte) (vs : List (Option Byte)) : Prop where
  lands : ∀ k v, vs[k]? = some v → ∃ t, target s.params b (a.toNat + k) = some t ∧ w.dev.readTarget t = v
  keeps : ∀ t, t.exists s.params = true → (∀ k < vs.length, target s.params b (a.toNat + k) ≠ some t) →
    w.dev.readTarget t = s.dev.readTarget t
  settle : w.settlePending = true ↔ s.settlePending = true ∨ (s.ctrl.seqPc ≠ some .S2 ∧
    ∃ k, vs[k]? = some (some 0x00) ∧ target s.params b (a.toNat + k) = some .shutdown)
  banksel : w.dev.banksel = s.dev.banksel

/-- The enable bytes of a bank end below address 0x100 (R9), and so do its colour bytes. -/
theorem small_of_exists (h : ParamFacts c) (ht : t.exists c = true) : t.small = true := by
  have hfit := h.enable_fits
  have hlen : pbufLen = 144 := rfl
  cases t <;> simp only [Target.exists, Target.small, Bool.and_eq_true, decide_eq_true_eq] at ht ⊢ <;> omega

theorem Stored.of_accepted (h : ParamFacts s.params) (ha : a ≠ s.params.bankRegister) (hb : s.dev.banksel = some b)
    (hf : transferFault s.params s.dev.banksel a vs.length = none) : Stored s (storeTransfer a vs s) a b vs := by
  obtain ⟨-, b', hb', -, hn, hreg⟩ := (transferFault_none_relative ha).1 hf
  obtain rfl : b = b' := Option.some.inj (hb.symm.trans hb')
  rw [storeTransfer_relative ha hb]
  refine ⟨fun k v hv => ?_, fun t ht hother => ?_, settlePending_writePayload, writePayload_banksel⟩
  · obtain ⟨hk, rfl⟩ := List.getElem?_eq_some_iff.1 hv
    obtain ⟨t, ht⟩ := Option.isSome_iff_exists.1 (hreg k hk)
    exact ⟨t, ht, readTarget_writePayload_same hn hk ht⟩
  · exact readTarget_writePayload_other hn (small_of_exists h ht) hother

/-! ### The block classes -/

/-- Addresses of a frame bank's areas name registers, and none is the bank register (R9, R62). -/
theorem frameBlock_accepted (h : ParamFacts c) (hb : b = 0 ∨ b = 1) (hn : n ≠ 0)
    (hs : ∀ k < n, inEnableArea c (a.toNat + k) = true ∨ inColorArea c (a.toNat + k) = true) :
    a ≠ c.bankRegister ∧ ∀ k < n, (target c b (a.toNat + k)).isSome = true := by
  refine ⟨?_, fun k hk => ?_⟩
  · rintro rfl
    simpa [h.bank_not_enable, h.bank_not_color] using hs 0 (Nat.pos_of_ne_zero hn)
  · rw [target_frameBank hb, frameTarget]
    split_ifs with he hc
    · rfl
    · rfl
    · exact absurd (hs k hk) (by simp [he, hc])

/-- Addresses of the config bank's registers name them, and none is the bank register (R9, R63). -/
theorem configBlock_accepted (h : ParamFacts c) (hn : n ≠ 0) (hs : ∀ k < n, isConfigRegister c (a.toNat + k) = true) :
    a ≠ c.bankRegister ∧ ∀ k < n, (target c c.configBank (a.toNat + k)).isSome = true := by
  refine ⟨?_, fun k hk => ?_⟩
  · rintro rfl
    have := isConfigRegister_iff.1 (hs 0 (Nat.pos_of_ne_zero hn))
    simp [h.bank_ne_mode, h.bank_ne_frame, h.bank_ne_audio, h.bank_ne_shutdown] at this
  · have hreg := hs k hk
    simp only [isConfigRegister, Bool.or_eq_true, beq_iff_eq, or_assoc] at hreg
    rcases hreg with e | e | e | e <;> rw [e]
    · rw [target_mode h]; rfl
    · rw [target_frame h]; rfl
    · rw [target_audioSync h]; rfl
    · rw [target_shutdown h]; rfl

/-- R66 accepts a transfer of a block class: it is bank-relative, and each of its addresses names a register (R92). -/
theorem blockClass_accepted (h : ParamFacts c) (hi : i ∈ [Instr.xen a p, .xcol a p, .xmix a p, .xcfgblk a p])
    (hc : classApplies c (some b) i = true) :
    p.length ≠ 0 ∧ a ≠ c.bankRegister ∧ ∀ k < p.length, (target c b (a.toNat + k)).isSome = true := by
  simp only [List.mem_cons, List.not_mem_nil, or_false] at hi
  rcases hi with rfl | rfl | rfl | rfl <;>
    simp only [classApplies, wellFormed, selectedFor, Bool.and_eq_true, Bool.or_eq_true, decide_eq_true_eq, beq_iff_eq,
      Option.some.injEq, span_iff] at hc
  · obtain ⟨⟨hn, hs⟩, hb⟩ := hc
    exact ⟨by omega, frameBlock_accepted h hb (by omega) fun k hk => .inl (hs k hk)⟩
  · obtain ⟨⟨hn, hs⟩, hb⟩ := hc
    exact ⟨by omega, frameBlock_accepted h hb (by omega) fun k hk => .inr (hs k hk)⟩
  · obtain ⟨⟨⟨hs, hmixed⟩, -⟩, hb⟩ := hc
    have hn : p.length ≠ 0 := fun e => by simp [e, span] at hmixed
    exact ⟨hn, frameBlock_accepted h hb hn hs⟩
  · obtain ⟨⟨hn, hs⟩, rfl⟩ := hc
    exact ⟨by omega, configBlock_accepted h (by omega) hs⟩

theorem exec_blockClass (hi : i ∈ [Instr.xen a p, .xcol a p, .xmix a p, .xcfgblk a p]) :
    exec i s = applyTransfer a p s := by
  simp only [List.mem_cons, List.not_mem_nil, or_false] at hi
  rcases hi with rfl | rfl | rfl | rfl <;> rfl

/-- Settles O10: R66 accepts the transfer, and a stored payload leaves what `Stored` lists. -/
theorem blockClassesStore : Obligations.BlockClassesStore := by
  intro s i a b p hwf hi hc hb
  have facts := paramFacts hwf
  obtain ⟨hn, ha, hreg⟩ := blockClass_accepted facts hi hc
  have hf : transferFault s.params s.dev.banksel a p.length = none :=
    (transferFault_none_iff facts ha).2 ⟨hn, b, hb, hreg⟩
  obtain ⟨lands, keeps, settle, banksel⟩ := Stored.of_accepted (vs := p.map some) facts ha hb (by simpa using hf)
  refine ⟨storeTransfer a (p.map some) s, ?_, fun k v hv => lands k (some v) (by simp [hv]), by simpa using keeps,
    by simpa using settle, banksel, storeTransfer_ctrl, storeTransfer_env, storeTransfer_params⟩
  rw [exec_blockClass hi, applyTransfer_next]
  exact ⟨hf, rfl⟩

end Sys2Proof.Machine
end

section
/-! SUPPORT. One transfer micro-step by its answer (40_bus_adapter.md R130; 60_exceptions.md R217; 20_memory.md R66, R72),
every micro-step whose call returns `ok` (10_state.md R24), and the commands of one register write from acceptance to `IDLE`
(40_bus_adapter.md R124 to R126). -/

namespace Sys2Proof.Machine

open Sys2Proof.Config

variable {s : State} {i : Instr} {l : Label} {t : Table} {nxt : Option Label} {act : Action} {a b : Byte}
  {p : List Byte} {n : Nat}

/-! ### A transfer by its answer -/

theorem perform_xfer_ok (r : s.env.nextAnswer = .ok) (hf : transferFault s.params s.dev.banksel a p.length = none) :
    perform l (.xfer a p) nxt s =
      .next (((storeTransfer a (p.map some) (s.takeAnswer (sent (a :: p)))).settleAfter l).goto nxt) := by
  have happ : applyTransfer a p (s.takeAnswer (sent (a :: p))) =
      .next (storeTransfer a (p.map some) (s.takeAnswer (sent (a :: p)))) := applyTransfer_next.2 ⟨hf, rfl⟩
  rw [perform, xferStep, callTransport_ok r, completeTransfer, happ]

theorem perform_xfer_err (r : s.env.nextAnswer = .err) (hf : transferFault s.params s.dev.banksel a p.length = none) :
    perform l (.xfer a p) nxt s =
      .next ((havocTransfer a p (s.takeAnswer (.transfer (a :: p) .err))).raiseTransfer l) := by
  rw [perform, xferStep, callTransport_err r, failTransfer, State.takeAnswer_params, State.takeAnswer_dev, hf]

/-- R66's checks come before the answer, unless the call never returns (R217). -/
theorem perform_xfer_fault {f : Fault} (r : s.env.nextAnswer ≠ .hang)
    (hf : transferFault s.params s.dev.banksel a p.length = some f) : perform l (.xfer a p) nxt s = .fault f := by
  rw [perform, xferStep]
  cases h : s.env.nextAnswer with
  | ok =>
    rw [callTransport_ok h, completeTransfer, applyTransfer, State.takeAnswer_params, State.takeAnswer_dev, hf]
  | err => rw [callTransport_err h, failTransfer, State.takeAnswer_params, State.takeAnswer_dev, hf]
  | hang => exact absurd h r

/-- Settles O15: the label's action is the transfer, whose checks precede both answers. -/
theorem modelFaultBeforeError : Obligations.ModelFaultBeforeError := by
  intro s i t l a p f ht hl hr ha hans hf
  rw [exec_perform ht hl hr ha, perform_xfer_fault hans hf]

/-! ### What a failed transfer leaves -/

@[simp] theorem State.raiseTransfer_dev : (s.raiseTransfer l).dev = s.dev := by
  unfold State.raiseTransfer; split <;> rfl
@[simp] theorem State.raiseTransfer_settlePending : (s.raiseTransfer l).settlePending = s.settlePending := by
  unfold State.raiseTransfer; split <;> rfl

/-- A failed bank select leaves the selected bank unknown (R72). -/
theorem havocTransfer_select :
    havocTransfer s.params.bankRegister p s = { s with dev := { s.dev with banksel := none } } := by
  cases p <;> simp [havocTransfer, storeTransfer]

/-- A failed bank-relative transfer leaves what storing unknown bytes leaves (R72). -/
theorem Stored.of_failed (h : ParamFacts s.params) (ha : a ≠ s.params.bankRegister) (hb : s.dev.banksel = some b)
    (hf : transferFault s.params s.dev.banksel a p.length = none) :
    Stored s (havocTransfer a p s) a b (List.replicate p.length none) := by
  simpa [havocTransfer] using Stored.of_accepted (vs := p.map fun _ => none) h ha hb (by simpa using hf)

/-- An unknown byte is no 0x00: only a completed transfer sets `SETTLE_PENDING` (R245). -/
theorem havocTransfer_settlePending (h : ParamFacts s.params)
    (hf : transferFault s.params s.dev.banksel a p.length = none) :
    (havocTransfer a p s).settlePending = s.settlePending := by
  by_cases ha : a = s.params.bankRegister
  · rw [ha, havocTransfer_select]
  · obtain ⟨-, b, hb, -⟩ := (transferFault_none_relative ha).1 hf
    exact Bool.eq_iff_iff.2 (by simpa [List.getElem?_replicate] using (Stored.of_failed h ha hb hf).settle)

/-- Settles O14: the error is raised over what R72 leaves. -/
theorem failedTransferHavoc : Obligations.FailedTransferHavoc := by
  intro s i t l a p hwf ht hl hr ha hans hf
  have facts := paramFacts hwf
  let u := s.takeAnswer (.transfer (a :: p) .err)
  have hw : exec i s = .next ((havocTransfer a p u).raiseTransfer l) := by
    rw [exec_perform ht hl hr ha, perform_xfer_err hans hf]
  have settle : (havocTransfer a p u).settlePending = s.settlePending := havocTransfer_settlePending (s := u) facts hf
  refine ⟨_, hw, by simpa using settle, fun hbank => ?_, fun hbank => ?_⟩
  · subst hbank
    exact State.raiseTransfer_dev.trans (congrArg State.dev (havocTransfer_select (s := u)))
  · rw [State.raiseTransfer_dev]
    refine ⟨storeTransfer_banksel (s := u) hbank, fun b hb => ?_⟩
    obtain ⟨lands, keeps, -, -⟩ := Stored.of_failed (s := u) facts hbank hb hf
    exact ⟨fun k hk => lands k none (by simp [hk]), fun r hx hother => keeps r hx fun k hk => hother k (by simpa using hk)⟩

/-! ### Every micro-step, answered `ok` -/

/-- At each of its labels a command has an action: W1 and C2 are labels of the commands that give their operands. -/
theorem labelAction_of_mem (ht : commandTable i = some t) (hl : l ∈ t.labels) (hc : s.ctrl.cmd = some i) :
    ∃ act, labelAction s l = some act := by
  cases l with
  | W1 =>
    obtain ⟨bytes, h⟩ : ∃ bytes, writeOperands s.params (some i) = some bytes := by
      cases i <;> cases ht <;> first | exact ⟨_, rfl⟩ | exact absurd hl (by decide)
    exact ⟨.send bytes, by rw [labelAction, hc, h]; rfl⟩
  | C2 =>
    obtain ⟨bytes, h⟩ : ∃ bytes, configOperands (some i) = some bytes := by
      cases i <;> cases ht <;> first | exact ⟨_, rfl⟩ | exact absurd hl (by decide)
    exact ⟨.send bytes, by rw [labelAction, hc, h]; rfl⟩
  | _ => exact ⟨_, rfl⟩

/-- With the answer `ok`, bytes that R66 accepts and a scroll that goes on, every action leads to the next label. -/
theorem perform_completes (r : s.env.nextAnswer = .ok)
    (hf : ∀ a p, act = .xfer a p → transferFault s.params s.dev.banksel a p.length = none)
    (hk : act = .testEnd → scrolledOut s.ctrl = false) :
    ∃ u : State, perform l act nxt s = .next (u.goto nxt) ∧ u.ctrl.phase = s.ctrl.phase ∧ u.ctrl.cmd = s.ctrl.cmd := by
  cases act with
  | xfer a p => exact ⟨_, perform_xfer_ok r (hf a p rfl), by simp, by simp⟩
  | openNode => exact ⟨(s.takeAnswer (.openCall _ .ok)).setOpened, by rw [perform, openStep, callTransport_ok r], rfl, rfl⟩
  | bindAddress => exact ⟨_, by rw [perform, bindStep, callTransport_ok r], by simp, by simp⟩
  | testEnd => exact ⟨s, by rw [perform, if_neg (by simp [hk rfl])], rfl, rfl⟩
  | _ => exact ⟨_, rfl, rfl, rfl⟩

/-- Settles O22: the label's action completes, and the sequence goes to the label that the table names. -/
theorem microStepCompletes : Obligations.MicroStepCompletes := by
  intro s i t l ht hl hr hans hf hk
  have ⟨busy, cmd, _, _⟩ := hr
  obtain ⟨act, ha⟩ := labelAction_of_mem ht hl cmd
  have hend : act = .testEnd → l = .K3 := by
    rintro rfl
    simpa [Action.labels] using mem_labels ha
  obtain ⟨u, hu, hphase, hcmd⟩ := perform_completes (l := l) (nxt := nextLabel i l) hans
    (fun a p e => hf a p (e ▸ ha)) fun e => hk (hend e)
  refine ⟨u.goto (nextLabel i l), by rw [exec_perform ht hl hr ha, hu], by simp, by simp [hphase, busy], ?_⟩
  rw [State.goto_cmd, hcmd, cmd]

/-! ### One register write, from acceptance to `IDLE` -/

theorem nextAnswer_of_answersOk (h : s.answersOk (n + 1)) : s.env.nextAnswer = .ok := by
  have hhead : (s.env.answers.take (n + 1)).head? = some .ok := by rw [h]; rfl
  rw [List.head?_take, if_neg n.succ_ne_zero] at hhead
  obtain ⟨rs, hrs⟩ := List.head?_eq_some_iff.1 hhead
  exact nextAnswer_cons hrs

/-- The commands that give W1 its operands have W1 as their only step. -/
theorem exec_accept_write (ho : writeOperands s.params (some i) = some (a, p)) (h : s.admits i) :
    commandTable i = some writeTable ∧ exec i s = .next (s.accept i (some .W1)) := by
  cases i <;> cases ho <;> exact ⟨rfl, exec_admitted rfl h.1⟩

/-- WRITE_REG, WRITE_BLOCK and SELECT_BANK, whose one transfer R66 accepts (R124 to R126). -/
theorem microRun_write (h : s.admits i) (hans : s.answersOk 1)
    (ho : writeOperands s.params (some i) = some (a, p))
    (hf : transferFault s.params s.dev.banksel a p.length = none) :
    microRun i 2 s = .next { s with
      ctrl := { s.ctrl with cmd := some i, seqPc := none }
      dev := (storeTransfer a (p.map some) (s.accept i (some .W1))).dev
      settlePending := (storeTransfer a (p.map some) (s.accept i (some .W1))).settlePending
      env := s.env.commanded [sent (a :: p)] } := by
  obtain ⟨ht, haccept⟩ := exec_accept_write ho h
  set u := s.accept i (some .W1) with hu
  have action : labelAction u .W1 = some (.xfer a p) := by
    rw [labelAction, hu, State.accept_params, State.accept_cmd, ho]; rfl
  have write : exec i u =
      .next (((storeTransfer a (p.map some) (u.takeAnswer (sent (a :: p)))).settleAfter .W1).goto none) := by
    rw [exec_perform (s := u) ht (by decide) ⟨rfl, rfl, rfl, h.2⟩ action]
    exact perform_xfer_ok (s := u) (nextAnswer_of_answersOk (n := 0) hans) hf
  refine (microRun_trans (microRun_one haccept) (microRun_one write)).trans (congrArg _ ?_)
  rw [storeTransfer_takeAnswer]
  refine State.eq_of_end_idle (phase_of_firstFailing h.1) rfl rfl rfl rfl ?_ rfl
  simp [State.settleAfter, State.goto, State.takeAnswer, Env.commanded, Env.emitted, BusEvent.isCall, hu, State.accept,
    State.admitted]

/-- Settles O25: each form's one transfer is a bank select. -/
theorem bankSelectsComplete : Obligations.BankSelectsComplete := by
  intro s b hans i hi h
  have ho : writeOperands s.params (some i) = some (s.params.bankRegister, [b]) := by
    simp only [List.mem_cons, List.not_mem_nil, or_false] at hi
    rcases hi with rfl | rfl | rfl <;> rfl
  have hst := storeTransfer_select (s := s.accept i (some .W1)) (v := some b)
  refine (microRun_write h hans ho transferFault_select).trans (congrArg _ ?_)
  rw [List.map_singleton]
  exact hst ▸ rfl

/-- A block of no byte is an illegal operand (R97), so an admitted command writes at least one. -/
theorem length_ne_zero_of_admits (h : s.admits (.writeBlock a p)) : p.length ≠ 0 := by
  have row := row_of_firstFailing h.1 (r := .badOperand) (check := fun i _ => illegalOperands i) (by simp [refusalTable])
  simpa using (Bool.or_eq_false_iff.1 row).1

/-- Settles O26: R66 accepts the one transfer, and a stored payload leaves what `Stored` lists; W1 is not S2. -/
theorem registerWritesComplete : Obligations.RegisterWritesComplete := by
  intro s i a b d hwf hans hi h ha hb hreg
  have facts := paramFacts hwf
  have ho : writeOperands s.params (some i) = some (a, d) := by
    rcases hi with rfl | ⟨v, rfl, rfl⟩ <;> rfl
  have hn : d.length ≠ 0 := by
    rcases hi with rfl | ⟨v, rfl, rfl⟩
    · exact length_ne_zero_of_admits h
    · simp
  have hf : transferFault s.params s.dev.banksel a d.length = none :=
    (transferFault_none_iff facts ha).2 ⟨hn, b, hb, hreg⟩
  obtain ⟨lands, keeps, settle, banksel⟩ := Stored.of_accepted (s := s.accept i (some .W1)) (vs := d.map some) facts ha hb
    (by simpa using hf)
  refine ⟨_, microRun_write h hans ho hf, fun k v hv => lands k (some v) (by simp [hv]), by simpa using keeps, ?_,
    banksel.trans hb, rfl, rfl, rfl⟩
  simpa using settle

end Sys2Proof.Machine
end

section
/-! SUPPORT. The host's decoder against the encoder (30_encoding.md R93 to R97): each undoes the other, and a command cut
short does not decode. -/

namespace Sys2Proof

open Sys2Proof.Config Sys2Proof.Machine

variable {op a : Byte} {bs rest more : List Byte} {i : Instr} {c : Params} {f : Format}

/-! ### decode of encode -/

theorem decode_of_read (h : (formatOf op).read bs = some (i, rest)) : decode (op :: bs) = .ok (i, rest) := by
  simp only [decode_cons, h]

theorem read_of_decode (h : decode (op :: bs) = .ok (i, rest)) : (formatOf op).read bs = some (i, rest) := by
  rw [decode_cons] at h
  cases hr : (formatOf op).read bs <;> simp_all

/-- A byte that is no opcode of R95 is looked up in vain. -/
theorem lookup_eq_none (h : op.toNat ∉ opcodeTable.map fun row => row.1.toNat) : opcodeTable.lookup op = none :=
  List.lookup_eq_none_iff.2 fun row hrow => bne_iff_ne.2 fun e =>
    h (List.mem_map.2 ⟨row, hrow, congrArg BitVec.toNat e.symm⟩)

/-- The ranges of R96 hold no opcode of R95, and each is its own row. -/
theorem reservedRow_of_wellFormed (hi : isReservedOpcode i = true) (hw : wellFormed c i = true) :
    ∃ op, encode i = [op] ∧ opcodeTable.lookup op = none ∧ reservedRow op = i := by
  cases i with
  | reserved03 op | reserved14 op | reserved24 op | reserved33 op | reserved44 op =>
    simp only [wellFormed, Bool.and_eq_true, decide_eq_true_eq] at hw
    refine ⟨op, rfl, lookup_eq_none ?_, ?_⟩
    · simp [opcodeTable]; omega
    · unfold reservedRow
      split_ifs <;> first | rfl | omega
  | _ => cases hi

/-- A byte outside R95 is a whole command (R96). -/
theorem decode_reserved (h : opcodeTable.lookup op = none) : decode (op :: rest) = .ok (reservedRow op, rest) :=
  decode_of_read (by rw [formatOf, h]; rfl)

/-- A block's count is its length, 0 included (R93). -/
theorem decode_writeBlock {d : List Byte} (h : d.length ≤ 255) :
    decode (encode (.writeBlock a d) ++ rest) = .ok (.writeBlock a d, rest) := by
  have count : (BitVec.ofNat 8 d.length).toNat = d.length := by
    rw [BitVec.toNat_ofNat, Nat.mod_eq_of_lt (by omega)]
  refine decode_of_read (op := 0x11) (bs := a :: BitVec.ofNat 8 d.length :: (d ++ rest)) ?_
  show (Format.HB .writeBlock).read _ = _
  simp [Format.read, count]

theorem decode_loadFrame {g : List Byte} (h : g.length = cells) :
    decode (encode (.loadFrame g) ++ rest) = .ok (.loadFrame g, rest) := by
  refine decode_of_read (op := 0x30) (bs := g ++ rest) ?_
  show (Format.HF .loadFrame).read _ = _
  simp [Format.read, ← h]

/-- The commands that the decoder gives: the well formed ones, and the block of count 0, which R97 has refused later. -/
def Decodable (c : Params) (i : Instr) : Prop := wellFormed c i = true ∨ ∃ a, i = .writeBlock a []

theorem decode_encode (hi : isHostCommand i = true) (hd : Decodable c i) :
    decode (encode i ++ rest) = .ok (i, rest) := by
  rcases hd with hw | ⟨a, rfl⟩
  · cases i with
    | writeBlock a d =>
      simp only [wellFormed, Bool.and_eq_true, decide_eq_true_eq] at hw
      exact decode_writeBlock hw.2
    | loadFrame g => exact decode_loadFrame (by simpa [wellFormed] using hw)
    | reserved03 op | reserved14 op | reserved24 op | reserved33 op | reserved44 op =>
      obtain ⟨op', he, hl, hr⟩ := reservedRow_of_wellFormed rfl hw
      rw [he, ← hr]
      exact decode_reserved hl
    | xbank | xmode | xframe | xaudio | xshut | xen | xcol | xmix | xcfgblk | xreserved => cases hi
    | _ => rfl
  · exact decode_writeBlock (Nat.zero_le _)

/-- Settles O1: a block's count is its length, and a reserved opcode is its own row. -/
theorem hostCommandRoundTrip : Obligations.HostCommandRoundTrip := fun _ _ _ hi hw => decode_encode hi (.inl hw)

/-! ### encode of decode -/

/-- The opcode's format makes commands that encode to the opcode and the operands taken, and that are well formed wherever
the operands have a length of R93. -/
def Format.Sound (c : Params) (op : Byte) : Format → Prop
  | .H0 i => encode i = [op] ∧ wellFormed c i = true
  | .H1 mk => ∀ b, encode (mk b) = [op, b] ∧ wellFormed c (mk b) = true
  | .H2 mk => ∀ a v, encode (mk a v) = [op, a, v] ∧ wellFormed c (mk a v) = true
  | .HB mk => op = 0x11 ∧ mk = .writeBlock
  | .HF mk => op = 0x30 ∧ mk = .loadFrame

theorem formatOf_sound : (formatOf op).Sound c op := by
  unfold formatOf
  cases h : opcodeTable.lookup op with
  | none => exact ⟨encode_reservedRow, wellFormed_reservedRow h⟩
  | some f =>
    have rows : ∀ row ∈ opcodeTable, row.2.Sound c row.1 := by simp [opcodeTable, Format.Sound, encode, wellFormed]
    obtain ⟨l, r, hmem, -⟩ := List.lookup_eq_some_iff.1 h
    exact rows (op, f) (by simp [hmem])

theorem Format.Sound.of_read (hf : f.Sound c op) (h : f.read bs = some (i, rest)) :
    op :: bs = encode i ++ rest ∧ Decodable c i := by
  cases f with
  | H0 j => cases h; exact ⟨by rw [hf.1]; rfl, .inl hf.2⟩
  | H1 mk =>
    cases bs with
    | nil => cases h
    | cons b bs => cases h; exact ⟨by rw [(hf b).1]; rfl, .inl (hf b).2⟩
  | H2 mk =>
    match bs with
    | [] | [_] => cases h
    | a :: v :: bs => cases h; exact ⟨by rw [(hf a v).1]; rfl, .inl (hf a v).2⟩
  | HB mk =>
    obtain ⟨rfl, rfl⟩ := hf
    match bs with
    | [] | [_] => cases h
    | a :: n :: bs =>
      simp only [Format.read] at h
      split_ifs at h with hn
      cases h
      have count : (bs.take n.toNat).length = n.toNat := List.length_take_of_le hn
      refine ⟨by simp [encode, count], ?_⟩
      by_cases h0 : n.toNat = 0
      · exact .inr ⟨a, by rw [h0, List.take_zero]⟩
      · refine .inl ?_
        simp only [wellFormed, count, Bool.and_eq_true, decide_eq_true_eq]
        omega
  | HF mk =>
    obtain ⟨rfl, rfl⟩ := hf
    simp only [Format.read] at h
    split_ifs at h with hn
    cases h
    exact ⟨by simp [encode], .inl (by simpa [wellFormed] using hn)⟩

theorem encode_of_decode (h : decode bs = .ok (i, rest)) : bs = encode i ++ rest ∧ Decodable c i := by
  cases bs with
  | nil => cases h
  | cons op bs => exact formatOf_sound.of_read (read_of_decode h)

/-- Settles O2: the opcode's format takes the operands that its commands encode. -/
theorem hostStreamReencodes : Obligations.HostStreamReencodes := fun _ _ _ _ h => encode_of_decode h

/-! ### A stream that ends inside a command -/

/-- Bytes behind a command do not change how it decodes. -/
theorem decode_append (c : Params) (h : decode bs = .ok (i, rest)) : decode (bs ++ more) = .ok (i, rest ++ more) := by
  obtain ⟨rfl, hd⟩ := encode_of_decode (c := c) h
  rw [List.append_assoc]
  exact decode_encode (isHostCommand_of_decode h) hd

theorem decode_cons_ne_endOfStream : decode (op :: bs) ≠ .error .endOfStream := by
  rw [decode_cons]
  cases (formatOf op).read bs <;> simp

/-- Settles O3: a beginning that decoded would leave the command's other bytes behind it, and `decode` leaves none. -/
theorem truncatedCommandIsNoCommand : Obligations.TruncatedCommandIsNoCommand := by
  intro c i k hi hw hk hlt
  have whole : decode (encode i) = .ok (i, []) := by simpa using decode_encode (rest := []) hi (.inl hw)
  cases hd : decode ((encode i).take k) with
  | ok r =>
    obtain ⟨j, rest⟩ := r
    have longer := decode_append c (more := (encode i).drop k) hd
    rw [List.take_append_drop, whole] at longer
    have left := (Prod.mk.inj (Except.ok.inj longer)).2
    have := List.drop_eq_nil_iff.1 (List.append_eq_nil_iff.1 left.symm).2
    omega
  | error e =>
    cases e with
    | truncated => rfl
    | endOfStream =>
      cases hb : encode i with
      | nil => simp [hb] at hlt
      | cons op bs =>
        obtain ⟨n, rfl⟩ := Nat.exists_eq_add_of_le' hk
        rw [hb] at hd
        exact absurd hd decode_cons_ne_endOfStream

end Sys2Proof
end

section
/-! SUPPORT. The device's decode classes of a transfer (30_encoding.md R92) against R66's effect (20_memory.md): one class
applies where R66 accepts the transfer and none where it does not, and a transfer micro-step runs that class. -/

namespace Sys2Proof.Machine

open Sys2Proof.Config

variable {s : State} {c : Params} {sel : Option Byte} {i j : Instr} {a b v : Byte} {p : List Byte} {n : Nat}

/-! ### The candidate classes -/

theorem mem_wireClasses_cases (hi : i ∈ wireClasses a p) :
    (∃ v, p = [v] ∧ i ∈ oneByteClasses a v) ∨ i ∈ blockClasses a p := by
  unfold wireClasses at hi
  split at hi
  · exact (List.mem_append.1 hi).imp_left fun h => ⟨_, rfl, h⟩
  · exact .inr hi

/-- A wire class but "anything else" is a candidate for the transfer that it encodes to. -/
theorem mem_wireClasses_of_encode (hi : isHostCommand i = false) (hx : ∀ a p, i ≠ .xreserved a p) :
    ∃ a p, encode i = a :: p ∧ i ∈ wireClasses a p := by
  cases i with
  | xbank a v | xmode a v | xframe a v | xaudio a v | xshut a v =>
    exact ⟨a, [v], rfl, by simp [wireClasses, oneByteClasses]⟩
  | xen a p | xcol a p | xmix a p | xcfgblk a p => exact ⟨a, p, rfl, List.mem_append_right _ (by simp [blockClasses])⟩
  | xreserved a p => exact absurd rfl (hx a p)
  | _ => cases hi

theorem exec_wireClasses (hi : i ∈ wireClasses a p) : exec i s = applyTransfer a p s := by
  rcases mem_wireClasses_cases hi with ⟨v, rfl, h⟩ | h
  · simp only [oneByteClasses, List.mem_cons, List.not_mem_nil, or_false] at h
    rcases h with rfl | rfl | rfl | rfl | rfl <;> rfl
  · exact exec_blockClass h

/-! ### At most one class applies -/

/-- The class that the address, the selected bank and the payload's length leave to an accepted transfer. -/
def classOf (c : Params) (sel : Option Byte) (a : Byte) (p : List Byte) : Instr :=
  if a = c.bankRegister then .xbank a (p.headD 0)
  else if sel = some c.configBank then
    if 2 ≤ p.length then .xcfgblk a p
    else if a = c.modeRegister then .xmode a (p.headD 0)
    else if a = c.frameRegister then .xframe a (p.headD 0)
    else if a = c.audioSyncRegister then .xaudio a (p.headD 0)
    else .xshut a (p.headD 0)
  else if span (inEnableArea c) a.toNat p.length then .xen a p
  else if span (inColorArea c) a.toNat p.length then .xcol a p
  else .xmix a p

/-- The areas of a frame bank are disjoint (R9). -/
theorem inEnableArea_eq_false (h : ParamFacts c) (hn : inColorArea c n = true) : inEnableArea c n = false := by
  have hd := h.disjoint
  rw [inColorArea_iff] at hn
  rw [Bool.eq_false_iff, ne_eq, inEnableArea_iff]
  omega

theorem oneByteClass_eq (h : ParamFacts c) (hi : i ∈ oneByteClasses a v) (hc : classApplies c sel i = true) :
    i = classOf c sel a [v] := by
  simp only [oneByteClasses, List.mem_cons, List.not_mem_nil, or_false] at hi
  rcases hi with rfl | rfl | rfl | rfl | rfl <;>
    simp only [classApplies, wellFormed, selectedFor, Bool.and_eq_true, beq_iff_eq] at hc <;>
    obtain ⟨rfl, hs⟩ := hc
  · simp [classOf]
  · simp [classOf, hs, h.bank_ne_mode.symm]
  · simp [classOf, hs, h.bank_ne_frame.symm, h.mode_ne_frame.symm]
  · simp [classOf, hs, h.bank_ne_audio.symm, h.mode_ne_audio.symm, h.frame_ne_audio.symm]
  · simp [classOf, hs, h.bank_ne_shutdown.symm, h.mode_ne_shutdown.symm, h.frame_ne_shutdown.symm,
      h.audio_ne_shutdown.symm]

/-- A block class needs a selected bank. -/
theorem bank_of_blockClass (hi : i ∈ blockClasses a p) (hc : classApplies c sel i = true) : ∃ b, sel = some b := by
  simp only [classApplies, Bool.and_eq_true] at hc
  cases sel with
  | some b => exact ⟨b, rfl⟩
  | none =>
    simp only [blockClasses, List.mem_cons, List.not_mem_nil, or_false] at hi
    rcases hi with rfl | rfl | rfl | rfl <;> cases hc.2

theorem blockClass_eq (h : ParamFacts c) (hi : i ∈ blockClasses a p) (hc : classApplies c sel i = true) :
    i = classOf c sel a p := by
  obtain ⟨b, rfl⟩ := bank_of_blockClass hi hc
  obtain ⟨hn, ha, -⟩ := blockClass_accepted h hi hc
  have frame : (some b == some 0 || some b == some 1) = true → b ≠ c.configBank := by
    rintro hb rfl
    rcases Bool.or_eq_true_iff.1 hb with e | e
    · exact h.config_ne_zero (Option.some.inj (beq_iff_eq.1 e))
    · exact h.config_ne_one (Option.some.inj (beq_iff_eq.1 e))
  simp only [blockClasses, List.mem_cons, List.not_mem_nil, or_false] at hi
  rcases hi with rfl | rfl | rfl | rfl <;>
    simp only [classApplies, wellFormed, selectedFor, Bool.and_eq_true, Bool.not_eq_true', decide_eq_true_eq, beq_iff_eq,
      Option.some.injEq] at hc
  · simp [classOf, ha, frame hc.2, hc.1.2]
  · have first := inEnableArea_eq_false h (span_iff.1 hc.1.2 0 (by omega))
    have hen : span (inEnableArea c) a.toNat p.length = false :=
      Bool.eq_false_iff.2 fun he => Bool.eq_false_iff.1 first (span_iff.1 he 0 (by omega))
    simp [classOf, ha, frame hc.2, hen, hc.1.2]
  · obtain ⟨⟨⟨-, hen⟩, hcol⟩, hb⟩ := hc
    simp [classOf, ha, frame hb, hen, hcol]
  · simp [classOf, ha, hc.2, hc.1.1]

theorem class_eq (h : ParamFacts c) (hi : i ∈ wireClasses a p) (hc : classApplies c sel i = true) :
    i = classOf c sel a p := by
  rcases mem_wireClasses_cases hi with ⟨v, rfl, hm⟩ | hm
  · exact oneByteClass_eq h hm hc
  · exact blockClass_eq h hm hc

/-- The first class that applies is the only one. -/
theorem wireClass_eq (h : ParamFacts c) (hi : i ∈ wireClasses a p) (hc : classApplies c sel i = true) :
    wireClass c sel a p = i := by
  unfold wireClass
  cases hf : (wireClasses a p).find? (classApplies c sel) with
  | none => exact absurd hc (List.find?_eq_none.1 hf i hi)
  | some j =>
    exact (class_eq h (List.mem_of_find?_eq_some hf) (List.find?_some hf)).trans (class_eq h hi hc).symm

/-! ### A class applies exactly where R66 accepts the transfer -/

theorem transferFault_bankRegister : transferFault c sel c.bankRegister n = none ↔ n = 1 := by
  unfold transferFault
  split_ifs <;> simp_all

theorem isSome_target_frameBank (hb : b = 0 ∨ b = 1) :
    (target c b n).isSome = (inEnableArea c n || inColorArea c n) := by
  rw [target_frameBank hb, frameTarget]
  split_ifs <;> simp_all

theorem isSome_target_configBank (h : ParamFacts c) : (target c c.configBank n).isSome = isConfigRegister c n := by
  rw [target_configBank h, configTarget, isConfigRegister]
  split_ifs <;> simp_all

theorem oneByteClass_accepted (h : ParamFacts c) (hi : i ∈ oneByteClasses a v) (hc : classApplies c sel i = true) :
    transferFault c sel a 1 = none := by
  have config : sel = some c.configBank → isConfigRegister c a.toNat = true → transferFault c sel a 1 = none := by
    rintro rfl ha
    obtain ⟨hne, hreg⟩ := configBlock_accepted h one_ne_zero fun k hk => by rwa [Nat.lt_one_iff.1 hk]
    exact (transferFault_none_iff h hne).2 ⟨one_ne_zero, _, rfl, hreg⟩
  simp only [oneByteClasses, List.mem_cons, List.not_mem_nil, or_false] at hi
  rcases hi with rfl | rfl | rfl | rfl | rfl <;>
    simp only [classApplies, wellFormed, selectedFor, Bool.and_eq_true, beq_iff_eq] at hc <;>
    obtain ⟨rfl, hs⟩ := hc
  · exact transferFault_select
  all_goals exact config hs (isConfigRegister_iff.2 (by simp))

theorem class_accepted (h : ParamFacts c) (hi : i ∈ wireClasses a p) (hc : classApplies c sel i = true) :
    transferFault c sel a p.length = none := by
  rcases mem_wireClasses_cases hi with ⟨v, rfl, hm⟩ | hm
  · exact oneByteClass_accepted h hm hc
  · obtain ⟨b, rfl⟩ := bank_of_blockClass hm hc
    obtain ⟨hn, ha, hreg⟩ := blockClass_accepted h hm hc
    exact (transferFault_none_iff h ha).2 ⟨hn, b, rfl, hreg⟩

/-- Addresses of a frame bank's areas are of the enable area, of the colour area, or mixed (R92). -/
theorem exists_frameClass (hb : b = 0 ∨ b = 1) (hn : p.length ≠ 0)
    (hreg : ∀ k < p.length, (target c b (a.toNat + k)).isSome = true) :
    ∃ i ∈ blockClasses a p, classApplies c (some b) i = true := by
  have hsel : b = 0#8 ∨ b = 1#8 := hb
  have areas : span (fun n => inEnableArea c n || inColorArea c n) a.toNat p.length = true :=
    span_iff.2 fun k hk => isSome_target_frameBank hb ▸ hreg k hk
  have hlen : 1 ≤ p.length := by omega
  cases hen : span (inEnableArea c) a.toNat p.length with
  | true =>
    exact ⟨.xen a p, by simp [blockClasses], by simp [classApplies, wellFormed, selectedFor, hsel, hlen, hen]⟩
  | false =>
    cases hcol : span (inColorArea c) a.toNat p.length with
    | true =>
      exact ⟨.xcol a p, by simp [blockClasses], by simp [classApplies, wellFormed, selectedFor, hsel, hlen, hcol]⟩
    | false =>
      exact ⟨.xmix a p, by simp [blockClasses], by simp [classApplies, wellFormed, selectedFor, hsel, areas, hen, hcol]⟩

/-- One register of the config bank has its own class, and several are `XCFGBLK` (R92). -/
theorem exists_configClass (h : ParamFacts c) (hn : p.length ≠ 0)
    (hreg : ∀ k < p.length, (target c c.configBank (a.toNat + k)).isSome = true) :
    ∃ i ∈ wireClasses a p, classApplies c (some c.configBank) i = true := by
  simp only [isSome_target_configBank h] at hreg
  match p with
  | [] => exact absurd rfl hn
  | [v] =>
    rcases isConfigRegister_iff.1 (hreg 0 one_pos) with e | e | e | e
    · exact ⟨.xmode a v, by simp [wireClasses, oneByteClasses], by simp [classApplies, wellFormed, selectedFor, e]⟩
    · exact ⟨.xframe a v, by simp [wireClasses, oneByteClasses], by simp [classApplies, wellFormed, selectedFor, e]⟩
    · exact ⟨.xaudio a v, by simp [wireClasses, oneByteClasses], by simp [classApplies, wellFormed, selectedFor, e]⟩
    · exact ⟨.xshut a v, by simp [wireClasses, oneByteClasses], by simp [classApplies, wellFormed, selectedFor, e]⟩
  | v :: v' :: q =>
    exact ⟨.xcfgblk a (v :: v' :: q), List.mem_append_right _ (by simp [blockClasses]),
      by simpa [classApplies, wellFormed, selectedFor] using span_iff.2 hreg⟩

theorem exists_class (h : ParamFacts c) (hf : transferFault c sel a p.length = none) :
    ∃ i ∈ wireClasses a p, classApplies c sel i = true := by
  by_cases ha : a = c.bankRegister
  · subst ha
    obtain ⟨v, rfl⟩ := List.length_eq_one_iff.1 (transferFault_bankRegister.1 hf)
    exact ⟨.xbank c.bankRegister v, by simp [wireClasses, oneByteClasses],
      by simp [classApplies, wellFormed, selectedFor]⟩
  · obtain ⟨hn, b, rfl, hb, -, hreg⟩ := (transferFault_none_relative ha).1 hf
    rcases hb with hb | rfl
    · obtain ⟨i, hi, hc⟩ := exists_frameClass (by simpa [isFrameBank] using hb) hn hreg
      exact ⟨i, List.mem_append_right _ hi, hc⟩
    · exact exists_configClass h hn hreg

theorem not_mem_wireClasses_xreserved : Instr.xreserved a p ∉ wireClasses a p := fun hm => by
  rcases mem_wireClasses_cases hm with ⟨v, rfl, h⟩ | h
  · simp [oneByteClasses] at h
  · simp [blockClasses] at h

/-- A transfer that R66 accepts is of a candidate class that applies, and one that it faults is of none. -/
theorem wireClass_cases (h : ParamFacts c) :
    (transferFault c sel a p.length = none ∧ wireClass c sel a p ∈ wireClasses a p) ∨
    ∃ f, transferFault c sel a p.length = some f ∧ wireClass c sel a p = .xreserved a p := by
  cases hf : transferFault c sel a p.length with
  | none =>
    obtain ⟨i, hi, hc⟩ := exists_class h hf
    exact .inl ⟨rfl, wireClass_eq h hi hc ▸ hi⟩
  | some f =>
    have none_applies : (wireClasses a p).find? (classApplies c sel) = none :=
      List.find?_eq_none.2 fun i hi hc => by simp [class_accepted h hi hc] at hf
    exact .inr ⟨f, rfl, by rw [wireClass, none_applies]; rfl⟩

/-! ### Decoding and running a transfer's class -/

/-- Settles O4: the class is a candidate for its own bytes, and no other candidate applies. -/
theorem wireClassRoundTrip : Obligations.WireClassRoundTrip := by
  intro c sel i hwf hi hc hx
  have facts := paramFacts hwf
  obtain ⟨a, p, he, hm⟩ := mem_wireClasses_of_encode hi hx
  have hf := class_accepted facts hm hc
  cases p with
  | nil => simp [transferFault] at hf
  | cons v q => rw [he, decodeWire_cons, wireClass_eq facts hm hc]

/-- Settles O5: a transfer that R66 accepts is of a class that applies, and none of these is `XRESERVED`. -/
theorem reservedClassIsModelFault : Obligations.ReservedClassIsModelFault := by
  intro c sel a p hwf _
  rcases wireClass_cases (sel := sel) (a := a) (p := p) (paramFacts hwf) with ⟨hf, hm⟩ | ⟨f, hf, hx⟩
  · have : wireClass c sel a p ≠ .xreserved a p := fun e => not_mem_wireClasses_xreserved (e ▸ hm)
    simp [hf, this]
  · simp [hf, hx]

/-- A transfer's class does what `DevApply` does, or stops where it stops (R92). -/
theorem exec_wireClass (h : ParamFacts s.params) :
    exec (wireClass s.params s.dev.banksel a p) s = applyTransfer a p s := by
  rcases wireClass_cases (sel := s.dev.banksel) (a := a) (p := p) h with ⟨-, hm⟩ | ⟨f, hf, hx⟩
  · exact exec_wireClasses hm
  · rw [hx, exec, execXreserved, applyTransfer, hf]

/-- Settles O12: the device applies the transfer that returned `ok`, which is what its class does. -/
theorem transferStepRunsWireClass : Obligations.TransferStepRunsWireClass := by
  intro s i t l a p hwf ht hl hr ha hans
  let u := s.takeAnswer (.transfer (a :: p) .ok)
  have hclass : exec (wireClass s.params s.dev.banksel a p) u = applyTransfer a p u :=
    exec_wireClass (s := u) (paramFacts hwf)
  rw [exec_perform ht hl hr ha, perform, xferStep, callTransport_ok hans, completeTransfer, hclass]
  cases applyTransfer a p u <;> rfl

end Sys2Proof.Machine
end

section
/-! SUPPORT. Words written out from the spec (30_encoding.md R92, R95, R96), a command's acceptance (R94, R98), and one step
of the machine by ENV's schedule and the host's stream (R93, R97; 60_exceptions.md R231). -/

namespace Sys2Proof.Machine

open Sys2Proof.Config

variable {s : State} {i : Instr} {l : Label} {evs : List EnvEvent} {rest : List Byte}

/-- Settles O6, word by word. -/
theorem specWordsDecode : Obligations.SpecWordsDecode :=
  ⟨rfl, rfl, rfl, rfl, rfl, rfl, rfl, rfl, rfl, rfl, rfl, rfl, rfl, rfl, rfl, rfl, rfl, rfl, rfl, rfl, rfl, rfl, rfl⟩

/-! ### Acceptance -/

/-- What has a first micro-step is a host command. -/
theorem isHostCommand_of_firstStep (h : firstStep i = some l) : isHostCommand i = true := by
  cases i <;> first | rfl | cases h

/-- The state in which an accepted command stands at its first micro-step (R94, R141, R144). -/
theorem acceptedBy_of_firstStep (h : firstStep i = some l) :
    s.acceptedBy i = { s with
      ctrl := { s.ctrl with
        cmd := some i
        phase := .busy
        seqPc := some l
        ready := if i = .resetSeq ∨ i = .setup then 0 else s.ctrl.ready }
      env := { s.env with reply := some .accepted } } := by
  cases i <;> cases h <;> rfl

/-- Settles O18: a command that passes its checks is accepted. -/
theorem acceptanceEntersSequence : Obligations.AcceptanceEntersSequence := fun _ _ _ hl hf =>
  (exec_admitted (isHostCommand_of_firstStep hl) hf).trans (congrArg _ (acceptedBy_of_firstStep hl))

/-- NOP has no check of its own (R131, R222). -/
theorem firstFailing_nop {c : Ctrl} (h : c.phase = .idle) : firstFailing .nop c = none := by
  simp [firstFailing_eq, h, isReservedOpcode, illegalOperands, needsBound, needsReady]

theorem firstFailing_reserved {c : Ctrl} (h : c.phase = .idle) (hi : isReservedOpcode i = true) :
    firstFailing i c = some .badOpcode := by
  simp [firstFailing_eq, h, hi]

/-- A command that fails a check is refused by it (R222). -/
theorem exec_refused {r : Reason} (hi : isHostCommand i = true) (hb : s.ctrl.phase ≠ .busy)
    (hf : firstFailing i s.ctrl = some r) : exec i s = .next (s.refuse r) := by
  rw [exec_issued hi (not_executing hb), firstRefusal_ownChecks hi, hf]

theorem isHostCommand_of_reserved (hi : isReservedOpcode i = true) : isHostCommand i = true := by
  cases i <;> first | rfl | cases hi

/-- Settles O19: NOP passes its checks, and a reserved opcode fails the third. -/
theorem nopAndReservedOpcodesChangeNothing : Obligations.NopAndReservedOpcodesChangeNothing := by
  intro s hp
  refine ⟨exec_admitted rfl (firstFailing_nop hp), fun op i hi => ?_⟩
  have hr : isReservedOpcode i = true := by
    simp only [List.mem_cons, List.not_mem_nil, or_false] at hi
    rcases hi with rfl | rfl | rfl | rfl | rfl <;> rfl
  exact exec_refused (isHostCommand_of_reserved hr) (by simp [hp]) (firstFailing_reserved hp hr)

/-! ### One step -/

theorem nextEvent_nil (h : s.env.sched = []) : nextEvent s = proceed s := by simp only [nextEvent, h]

theorem nextEvent_proceed (h : s.env.sched = .proceed :: evs) : nextEvent s = proceed (s.withSched evs) := by
  simp only [nextEvent, h]

theorem nextEvent_attempt (h : s.env.sched = .attempt :: evs) : nextEvent s = issueCommand (s.withSched evs) := by
  simp only [nextEvent, h]

theorem proceed_busy (hb : s.ctrl.phase = .busy) (hc : s.ctrl.cmd = some i) : proceed s = exec i s := by
  simp only [proceed, hb, hc, if_true]

theorem proceed_not_busy (hb : s.ctrl.phase ≠ .busy) : proceed s = issueCommand s := if_neg hb

theorem issueCommand_ok (h : decode s.env.stream = .ok (i, rest)) :
    issueCommand s =
      if s.ctrl.phase = .busy then .next ((s.withStream rest).refuse .busy) else exec i (s.withStream rest) := by
  simp only [issueCommand, h]

theorem issueCommand_nil (h : s.env.stream = []) : issueCommand s = .next s := by simp only [issueCommand, h, decode]

/-- In `IDLE` a truncated command passes the checks of the phase, and its operand is what is wrong (R97, R222). -/
theorem issueCommand_truncated (h : decode s.env.stream = .error .truncated) (hp : s.ctrl.phase = .idle) :
    issueCommand s = .next ((s.withStream []).refuse .badOperand) := by
  have first : firstRefusal [.badOperand] s.ctrl = some .badOperand := by simp [firstRefusal, Reason.failsIn, hp]
  simp only [issueCommand, h, first, Option.getD_some]

/-- Settles O47: the block moves, on the executing command or on the host's next one. -/
theorem stepRunsDecodedCommand : Obligations.StepRunsDecodedCommand := by
  intro s u hwf hu
  have moves : step s = proceed u := by
    rw [step_of_wellFormed hwf]
    rcases hu with ⟨hs, rfl⟩ | ⟨evs, hs, rfl⟩
    · exact nextEvent_nil hs
    · exact nextEvent_proceed hs
  have same : u.ctrl = s.ctrl ∧ u.env.stream = s.env.stream := by
    rcases hu with ⟨-, rfl⟩ | ⟨evs, -, rfl⟩ <;> exact ⟨rfl, rfl⟩
  obtain ⟨ctrl, stream⟩ := same
  rw [moves, ← ctrl, ← stream]
  refine ⟨fun i hb hc => proceed_busy hb hc, fun i rest hb hd => ?_, fun hb hn => ?_⟩
  · rw [proceed_not_busy hb, issueCommand_ok hd, if_neg hb]
    rfl
  · rw [proceed_not_busy hb, issueCommand_nil hn]

/-- Settles O48: the attempt takes the command from the stream, or what is left of one. -/
theorem attemptedCommand : Obligations.AttemptedCommand := by
  intro s evs hwf hs
  rw [step_of_wellFormed hwf, nextEvent_attempt hs]
  exact ⟨fun i rest hd => issueCommand_ok (s := s.withSched evs) hd,
    fun hd hp => issueCommand_truncated (s := s.withSched evs) hd hp⟩

end Sys2Proof.Machine
end

section
/-! SUPPORT. `open` and `bindAddress` by their answer (40_bus_adapter.md R122, R123; 60_exceptions.md R212, R213), and OPEN,
BIND, WRITE_CONFIG, ENABLE_SEQ and PRESENT from acceptance to their end (40_bus_adapter.md R127, R128; 41_setup_sequencer.md
R143; 43_scroll_sequencer.md R188). -/

namespace Sys2Proof.Machine

open Sys2Proof.Config

variable {s : State} {i : Instr} {l m : Label} {t : Table} {nxt : Option Label} {n : Nat} {a b v : Byte} {r : Target}
  {c : Params} {ev : BusEvent}

/-! ### O1 and O2 by their answer -/

theorem State.goto_of_busy (h : s.ctrl.phase = .busy) :
    s.goto nxt = { s with ctrl := { s.ctrl with seqPc := nxt, phase := if nxt = none then .idle else .busy } } := by
  cases nxt with
  | none => rfl
  | some l => rw [if_neg (Option.some_ne_none l), ← h]; rfl

/-- O1 is a label of OPEN and of RUN (R122, R192). -/
theorem exec_openStep (hi : i = .openDev ∨ i = .run) (h : s.runsAt i .O1) :
    exec i s = openStep .O1 (nextLabel i .O1) s := by
  rcases hi with rfl | rfl
  · exact exec_perform (t := openTable) rfl (by decide) h rfl
  · exact exec_perform (t := runTable) rfl (by decide) h rfl

/-- O2 is a label of BIND and of RUN (R123, R192). -/
theorem exec_bindStep (hi : i = .bindDev ∨ i = .run) (h : s.runsAt i .O2) :
    exec i s = bindStep .O2 (nextLabel i .O2) s := by
  rcases hi with rfl | rfl
  · exact exec_perform (t := bindTable) rfl (by decide) h rfl
  · exact exec_perform (t := runTable) rfl (by decide) h rfl

theorem openStep_ok (h : s.env.nextAnswer = .ok) : openStep l nxt s =
    .next ((s.takeAnswer (.openCall s.params.devicePath .ok)).setOpened.goto nxt) := callTransport_ok h

theorem openStep_err (h : s.env.nextAnswer = .err) : openStep l nxt s =
    .next ((s.takeAnswer (.openCall s.params.devicePath .err)).raise causeDeviceOpen 0x00 l) := callTransport_err h

theorem bindStep_ok (h : s.env.nextAnswer = .ok) : bindStep l nxt s =
    .next (((s.takeAnswer (.bindCall s.params.deviceAddress .ok)).setBound.enterSetup nxt).goto nxt) := callTransport_ok h

theorem bindStep_err (h : s.env.nextAnswer = .err) : bindStep l nxt s =
    .next ((s.takeAnswer (.bindCall s.params.deviceAddress .err)).raise causeAddressBind 0x00 l) := callTransport_err h

/-- Settles O23: each call goes by its answer; RUN goes on where OPEN and BIND end. -/
theorem openAndBindStepOutcomes : Obligations.OpenAndBindStepOutcomes := by
  refine fun s i => ⟨fun hi h => ?_, fun hi h => ?_⟩ <;> have ⟨busy, _, _, _⟩ := h
  · rw [exec_openStep hi h]
    refine ⟨fun ok => ?_, fun err => openStep_err err⟩
    rw [openStep_ok ok, State.goto_of_busy (by simpa using busy)]
    rcases hi with rfl | rfl <;> rfl
  · rw [exec_bindStep hi h]
    refine ⟨fun ok => ?_, fun err => bindStep_err err⟩
    rw [bindStep_ok ok, State.goto_of_busy (by simpa using busy)]
    rcases hi with rfl | rfl <;> rfl

/-! ### OPEN and BIND -/

/-- ENV after an accepted command's one call. -/
theorem takeAnswer_accept_env (h : ev.isCall = true) : ((s.accept i nxt).takeAnswer ev).env = s.env.commanded [ev] := by
  simp [State.takeAnswer, State.accept, State.admitted, Env.commanded, Env.emitted, h]

theorem microRun_openDev (h : s.admits .openDev) (ans : s.answersOk 1) :
    microRun .openDev 2 s = .next { s with
      ctrl := { s.ctrl with cmd := some .openDev, seqPc := none, opened := 1 }
      env := s.env.commanded [.openCall s.params.devicePath .ok] } := by
  have opened := (exec_openStep (s := s.accept .openDev (some .O1)) (.inl rfl) ⟨rfl, rfl, rfl, h.2⟩).trans
    (openStep_ok (nextAnswer_of_answersOk (n := 0) ans))
  refine (microRun_trans (microRun_one (exec_admitted rfl h.1)) (microRun_one opened)).trans (congrArg _ ?_)
  exact State.eq_of_end_idle (phase_of_firstFailing h.1) rfl rfl rfl rfl (takeAnswer_accept_env rfl) rfl

theorem microRun_bindDev (h : s.admits .bindDev) (ans : s.answersOk 1) :
    microRun .bindDev 2 s = .next { s with
      ctrl := { s.ctrl with cmd := some .bindDev, seqPc := none, bound := 1 }
      env := s.env.commanded [.bindCall s.params.deviceAddress .ok] } := by
  have bound := (exec_bindStep (s := s.accept .bindDev (some .O2)) (.inl rfl) ⟨rfl, rfl, rfl, h.2⟩).trans
    (bindStep_ok (nextAnswer_of_answersOk (n := 0) ans))
  refine (microRun_trans (microRun_one (exec_admitted rfl h.1)) (microRun_one bound)).trans (congrArg _ ?_)
  exact State.eq_of_end_idle (phase_of_firstFailing h.1) rfl rfl rfl rfl (takeAnswer_accept_env rfl) rfl

/-- Settles O24: acceptance, and the one call. -/
theorem openAndBindComplete : Obligations.OpenAndBindComplete := fun _ ans =>
  ⟨fun h => microRun_openDev h ans, fun h => microRun_bindDev h ans⟩

/-! ### WRITE_CONFIG -/

/-- A bank select alone, on the way to the next label (R64). -/
theorem Goes.select (h : Goes s i t l (n + 1)) (ha : labelAction s l = some (.send (selectBytes s.params b)))
    (hm : nextLabel i l = some m) :
    Covers s i t 1 n (s.selected b).dev s.settlePending [sent [s.params.bankRegister, b]] (some m) where
  run := microRun_one (hm ▸ h.exec_select ha)
  goes := fun _ hm' => Option.some.inj hm' ▸ h.ran (k := 1) rfl (h.next_mem hm)

/-- WRITE_CONFIG at C2: the config bank is selected (R127). -/
def State.configSelected (s : State) (a v : Byte) : State :=
  (s.accept (.writeConfig a v) (some .C1)).ran (s.selected s.params.configBank).dev s.settlePending
    [sent [s.params.bankRegister, s.params.configBank]] (some .C2)

theorem microRun_writeConfig_select (hp : ParamFacts s.params) (ans : s.answersOk 2) (h : s.admits (.writeConfig a v)) :
    microRun (.writeConfig a v) 3 s = microRun (.writeConfig a v) 1 (s.configSelected a v) ∧
      Goes (s.configSelected a v) (.writeConfig a v) configTable .C2 1 := by
  have start : Goes (s.accept (.writeConfig a v) (some .C1)) _ configTable .C1 2 :=
    goes_of_admits h rfl rfl hp ans
  have select := start.select (m := .C2) rfl rfl
  exact ⟨microRun_add (n := 1) (microRun_trans (microRun_one (exec_admitted rfl h.1)) select.run), select.goes .C2 rfl⟩

/-- The second transfer, where R66 accepts it. -/
theorem microRun_writeConfig (hp : ParamFacts s.params) (ans : s.answersOk 2) (h : s.admits (.writeConfig a v))
    (hf : transferFault s.params (some s.params.configBank) a 1 = none) :
    microRun (.writeConfig a v) 3 s = .next { s with
      ctrl := { s.ctrl with cmd := some (.writeConfig a v), seqPc := none }
      dev := (storeTransfer a [some v] (s.configSelected a v)).dev
      settlePending := (storeTransfer a [some v] (s.configSelected a v)).settlePending
      env := s.env.commanded [sent [s.params.bankRegister, s.params.configBank], sent [a, v]] } := by
  obtain ⟨run, go⟩ := microRun_writeConfig_select hp ans h
  rw [run, microRun_one (go.exec_transfer (p := [v]) rfl hf), State.configSelected]
  refine congrArg _ (State.eq_of_end_idle (phase_of_firstFailing h.1) rfl rfl rfl rfl ?_ rfl)
  exact congrArg (fun e : Env => { e with reply := some .accepted })
    (Env.emitted_append (e := s.env) (evs := [sent [s.params.bankRegister, s.params.configBank]]) (evs' := [sent [a, v]]))

/-- One byte stored in the register that its address names. -/
theorem storeTransfer_singleton {v : Option Byte} (ha : a ≠ s.params.bankRegister) (hb : s.dev.banksel = some b)
    (hr : target s.params b a.toNat = some r) : storeTransfer a [v] s = writeTarget r v s := by
  rw [storeTransfer_relative ha hb, writePayload, hr, writePayload]

theorem transferFault_one_of_target (hp : ParamFacts c) (ha : a ≠ c.bankRegister)
    (hr : target c b a.toNat = some r) : transferFault c (some b) a 1 = none :=
  (transferFault_none_iff hp ha).2 ⟨one_ne_zero, b, rfl, fun k hk => by
    obtain rfl := Nat.lt_one_iff.1 hk
    rw [Nat.add_zero, hr]
    rfl⟩

/-- One byte to an address of the config bank that names no register (R63, R66). -/
theorem transferFault_undefined (ha : a ≠ c.bankRegister) (hr : target c c.configBank a.toNat = none) :
    transferFault c (some c.configBank) a 1 = some .undefinedRegister := by
  have hfit : ¬ a.toNat > 0xFF := by have := a.isLt; omega
  simp [transferFault, ha, hfit, span, hr]

/-- Settles O27: C1 selects the config bank, and C2's byte goes by the register that `a` names in it. -/
theorem writeConfigCompletes : Obligations.WriteConfigCompletes := by
  intro s a v hwf ans h
  have facts := paramFacts hwf
  refine ⟨fun r ha hr => ?_, fun ha hr => ?_, fun ha => ?_⟩
  · have run := microRun_writeConfig facts ans h (transferFault_one_of_target facts ha hr)
    rw [storeTransfer_singleton (s := s.configSelected a v) ha rfl hr] at run
    have small {u : Target} (hu : u.exists s.params = true) : u.small = true := small_of_exists facts hu
    have reads {u : Target} (hu : u.exists s.params = true) :=
      readTarget_writeTarget (s := s.configSelected a v) (v := some v) (small (target_exists hr)) (small hu)
    refine ⟨_, run, ?_, fun u hu hne => ?_, ?_, writeTarget_banksel, rfl, rfl, rfl⟩
    · exact (reads (target_exists hr)).trans (if_pos rfl)
    · exact (reads hu).trans ((if_neg hne).trans (by cases u <;> rfl))
    · have atC2 : ((s.configSelected a v).ctrl.seqPc != some .S2) = true := rfl
      refine settlePending_writeTarget.trans ?_
      rw [atC2, Bool.and_true]
      rfl
  · obtain ⟨run, go⟩ := microRun_writeConfig_select facts ans h
    have stop : exec (.writeConfig a v) (s.configSelected a v) = .fault .undefinedRegister := by
      rw [exec_perform go.table go.label go.runs (act := .xfer a [v]) rfl]
      exact perform_xfer_fault (by simp [go.nextAnswer]) (transferFault_undefined (c := s.params) ha hr)
    rw [run, microRun, stop]
  · subst ha
    refine (microRun_writeConfig facts ans h transferFault_select).trans (congrArg _ ?_)
    have hst := storeTransfer_select (s := s.configSelected s.params.bankRegister v) (v := some v)
    exact hst ▸ rfl

/-! ### ENABLE_SEQ and PRESENT -/

/-- Settles O30: acceptance, and S12 to S15. -/
theorem enableSeqCompletes : Obligations.EnableSeqCompletes := by
  intro s hwf ans h
  obtain ⟨en, enabled, hen⟩ := (goes_of_admits (n := 0 + 4) h (t := enableTable) rfl rfl (paramFacts hwf) ans).enable_run
  refine ⟨en, (microRun_trans (microRun_one (exec_admitted rfl h.1)) enabled.run).trans (congrArg _ ?_), hen⟩
  exact State.eq_of_end_idle (phase_of_firstFailing h.1) rfl rfl rfl rfl rfl rfl

/-- Settles O36: PRESENT's run gives the colour bytes of every bank. -/
theorem presentCompletes : Obligations.PresentCompletes := by
  intro s hwf ans h
  obtain ⟨col, run, hcol⟩ := microRun_present (paramFacts hwf) ans h
  exact ⟨col, run, fun b _ => hcol b⟩

end Sys2Proof.Machine
end

section
/-! SUPPORT. A tick that goes on, K1 to K4 (43_scroll_sequencer.md R187, R189, R190), and TICK from acceptance to `IDLE`. -/

namespace Sys2Proof.Machine

open Sys2Proof.Config

variable {s : State} {i : Instr} {l m : Label} {t : Table} {n k : Nat} {d : Dev} {q : Bool} {evs : List BusEvent}

/-! ### K1 to K3 -/

/-- K1 to K3, where the tick does not terminate: one column on, and the text rendered there (R189). -/
def State.scrolled (s : State) : State := s.stepOffset.renderFrame.goto (some .U1)

/-- K1's `OFFSET`, in range (R10). -/
theorem ScrollInRange.toInt_offset_sub_one (h : ScrollInRange s) :
    (s.ctrl.offset - 1).toInt = s.ctrl.offset.toInt - 1 := by
  have := h.text_le
  have := h.offset_ge
  exact toInt_sub_one (by omega)

/-- In range, the text is rendered at `OFFSET + 17` on Int (R10, R189). -/
theorem ScrollInRange.scrolled_eq (h : ScrollInRange s) : s.scrolled = { s with ctrl := { s.ctrl with
    seqPc := some .U1
    offset := s.ctrl.offset - 1
    lframe := (render s.params (s.ctrl.offset.toInt - 1 + 17)).1
    textw := BitVec.ofNat 32 (textWidth s.params) } } := by
  have cursor : (s.ctrl.offset - 1 + windowWidth).toInt = s.ctrl.offset.toInt - 1 + 17 := by
    have := h.text_le
    have := h.offset_ge
    have := h.offset_le
    rw [BitVec.toInt_add, show windowWidth.toInt = 17 from rfl, h.toInt_offset_sub_one, Int.bmod_eq_of_le] <;> omega
  simp only [State.scrolled, State.goto, State.renderFrame, State.stepOffset, cursor, render_width, BitVec.ofInt_natCast]

/-- A text that has not left the window does not end the scroll (R190). -/
theorem ScrollInRange.not_scrolledOut (h : ScrollInRange s)
    (go : 0 ≤ s.ctrl.offset.toInt - 1 + 17 + textWidth s.params) : scrolledOut s.scrolled.ctrl = false := by
  have hle := h.offset_le
  have ho : s.scrolled.ctrl.offset.toInt = s.ctrl.offset.toInt - 1 := h.toInt_offset_sub_one
  have ht : s.scrolled.ctrl.textw.toInt = textWidth s.params := by
    rw [State.scrolled, State.goto_textw, State.renderFrame_textw, render_width]
    exact toInt_ofInt_of_textFits h.text_fits
  have hp : s.scrolled.params = s.params := rfl
  have range : ScrollInRange s.scrolled :=
    { text_fits := h.text_fits
      textw_nonneg := by omega
      textw_le := ht.le
      offset_le := by omega
      offset_ge := by rw [hp]; omega
      offset_between_ticks := fun _ _ _ => by rw [hp]; omega }
  rw [Bool.eq_false_iff, ne_eq, range.scrolledOut_iff]
  omega

namespace Goes

/-- K1 to K3, where the tick does not terminate (R189). -/
theorem scroll_run (h : Goes s i t .K1 n) (hr : ScrollInRange s)
    (go : 0 ≤ s.ctrl.offset.toInt - 1 + 17 + textWidth s.params) :
    microRun i 3 s = .next s.scrolled ∧ Goes s.scrolled i t .U1 n := by
  have ⟨busy, cmd, _, free⟩ := h.runs
  let u := s.stepOffset.goto (some .K2)
  let w := u.renderFrame.goto (some .K3)
  have stepped : exec i s = .next u := h.exec_local rfl rfl nofun
  have at2 : Goes u i t .K2 n := { h with runs := ⟨busy, cmd, rfl, free⟩, label := h.next_mem rfl }
  have rendered : exec i u = .next w := at2.exec_local rfl rfl nofun
  have at3 : Goes w i t .K3 n := { h with runs := ⟨busy, cmd, rfl, free⟩, label := at2.next_mem rfl }
  have tested : exec i w = .next s.scrolled := by
    rw [exec_perform h.table at3.label at3.runs (act := .testEnd) rfl, perform]
    exact if_neg (Bool.eq_false_iff.1 (hr.not_scrolledOut go))
  exact ⟨microRun_trans (microRun_one stepped) (microRun_trans (microRun_one rendered) (microRun_one tested)),
    { h with runs := ⟨busy, cmd, rfl, free⟩, label := at3.next_mem rfl }⟩

/-! ### A whole tick -/

/-- TICK, SCROLL and RUN have K1, and in them K4 is behind the frame update (R189, R191, R192). -/
theorem wait_behind_update (h : Goes s i t .K1 n) : nextLabel i .U6 = some .K4 ∧ .K4 ∈ t.labels := by
  obtain ⟨-, ht, hl, -, -⟩ := h
  cases i with
  | tick | scroll | run => cases ht; exact ⟨rfl, by decide⟩
  | _ => cases ht <;> exact absurd hl (by decide)

/-- A wait behind outputs that took `k` of the answers (R225). -/
theorem wait_after (h : Goes s i t l (n + k)) (hk : evs.countP BusEvent.isCall = k) (hm : m ∈ t.labels) {ms : Nat}
    (ha : labelAction s m = some (.wait ms)) :
    microRun i 1 (s.ran d q evs (some m)) = .next (s.ran d q (evs ++ [.wait ms]) (nextLabel i m)) := by
  have action : labelAction (s.ran d q evs (some m)) m = labelAction s m := by cases m <;> rfl
  rw [((h.ran hk hm).wait (action.trans ha)).run]
  exact congrArg _ State.ran_ran

/-- K1 to K4, where the tick does not terminate: the rendered frame goes to bank `ACTIVE`, and the interval's wait follows
(R187, R189). -/
theorem tick_run (h : Goes s i t .K1 (n + 4)) (hr : ScrollInRange s)
    (go : 0 ≤ s.ctrl.offset.toInt - 1 + 17 + textWidth s.params) :
    ∃ col, microRun i 10 s = .next (s.scrolled.mapBuffer.toggleActive.ran { s.dev with
          banksel := some s.params.configBank
          frame := some (s.ctrl.active.setWidth 8)
          col := col } s.settlePending
        (updateEvents s.params (s.ctrl.active.setWidth 8) (bufferBytes (mapFrame s.scrolled.ctrl.lframe)) ++ [.wait 100])
        (nextLabel i .K4)) ∧
      ∀ c, ∀ j < 144, ({ s.dev with col := col } : Dev).colorByte c j =
        if c = s.ctrl.active.toNat then some (bufferByte (mapFrame s.scrolled.ctrl.lframe) j)
        else s.dev.colorByte c j := by
  obtain ⟨scrolled, at1⟩ := h.scroll_run hr go
  obtain ⟨col, updated, hcol⟩ := at1.update_run
  obtain ⟨hnext, hmem⟩ := h.wait_behind_update
  rw [hnext] at updated
  have goes : Goes s.scrolled.mapBuffer.toggleActive i t .U1 (n + 4) := { at1 with }
  exact ⟨col, microRun_trans scrolled (microRun_trans updated (goes.wait_after (k := 4) rfl hmem rfl)), hcol⟩

end Goes

/-! ### TICK -/

/-- TICK, from acceptance to `IDLE`, where it does not terminate (R187, R189). -/
theorem microRun_tick (hp : ParamFacts s.params) (hr : ScrollInRange s) (ans : s.answersOk 4) (h : s.admits .tick)
    (go : 0 ≤ s.ctrl.offset.toInt - 1 + 17 + textWidth s.params) :
    ∃ col, microRun .tick 11 s = .next { s with
        ctrl := { s.ctrl with
          cmd := some .tick
          seqPc := none
          offset := s.ctrl.offset - 1
          textw := BitVec.ofNat 32 (textWidth s.params)
          lframe := (render s.params (s.ctrl.offset.toInt - 1 + 17)).1
          pbuf := mapFrame (render s.params (s.ctrl.offset.toInt - 1 + 17)).1
          active := s.ctrl.active ^^^ 1 }
        dev := { s.dev with
          banksel := some s.params.configBank
          frame := some (s.ctrl.active.setWidth 8)
          col := col }
        env := s.env.commanded (updateEvents s.params (s.ctrl.active.setWidth 8)
          (bufferBytes (mapFrame (render s.params (s.ctrl.offset.toInt - 1 + 17)).1)) ++ [.wait 100]) } ∧
      ∀ c, ∀ j < 144, ({ s.dev with col := col } : Dev).colorByte c j =
        if c = s.ctrl.active.toNat then
          some (bufferByte (mapFrame (render s.params (s.ctrl.offset.toInt - 1 + 17)).1) j)
        else s.dev.colorByte c j := by
  have start : Goes (s.accept .tick (some .K1)) .tick tickTable .K1 (0 + 4) := goes_of_admits h rfl rfl hp ans
  have range : ScrollInRange (s.accept .tick (some .K1)) :=
    { hr with offset_between_ticks := fun _ _ _ => by simp only [State.accept_offset, State.accept_params]; omega }
  obtain ⟨col, tick, hcol⟩ := start.tick_run range go
  rw [range.scrolled_eq] at tick hcol
  refine ⟨col, (microRun_trans (microRun_one (exec_admitted rfl h.1)) tick).trans (congrArg _ ?_), hcol⟩
  exact State.eq_of_end_idle (phase_of_firstFailing h.1) rfl rfl rfl rfl rfl rfl

/-- Settles O41: the state that TICK's run ends in, register by register. -/
theorem tickWritesFrame : Obligations.TickWritesFrame := by
  intro s hwf hr ans h go
  obtain ⟨col, run, hcol⟩ := microRun_tick (paramFacts hwf) hr ans h go
  exact ⟨_, run, hr.toInt_offset_sub_one, rfl, rfl, fun b _ => hcol b, rfl, rfl, rfl⟩

end Sys2Proof.Machine
end

section
/-! SUPPORT. The setup sequencer's commands from acceptance to their end, SETUP issued twice (41_setup_sequencer.md R140
to R148), and that no transfer of a fixed sequence is a model fault (60_exceptions.md R221). -/

namespace Sys2Proof.Machine

open Sys2Proof.Config

variable {s : State} {i : Instr} {l : Label} {t : Table} {nxt : Option Label} {act : Action} {a b : Byte}
  {p : List Byte} {c : Params} {d : Dev} {q : Bool} {evs : List BusEvent} {n k : Nat}

/-! ### Whole sequences -/

/-- An accepted command whose micro-steps are covered to its end is back in `IDLE`, with its outputs made. -/
theorem microRun_covered (h : s.admits i) (run : Covers (s.acceptedBy i) i t k n d q evs none)
    (ht : commandTable i = some t) :
    microRun i (1 + k) s = .next { s with
      ctrl := { (s.acceptedBy i).ctrl with seqPc := none, phase := s.ctrl.phase }
      dev := d
      settlePending := q
      env := s.env.commanded evs } := by
  have idle := phase_of_firstFailing h.1
  obtain ⟨_, first⟩ := firstStep_of_table ht
  have accepted := exec_admitted (isHostCommand_of_firstStep first) h.1
  refine (microRun_trans (microRun_one accepted) run.run).trans (congrArg _ ?_)
  rcases State.acceptedBy_of_table (s := s) ht with e | e <;> rw [e] <;>
    exact State.eq_of_end_idle idle rfl rfl rfl rfl rfl rfl

/-- Settles O28: acceptance clears `READY`, and S1 to S5 run to the end. -/
theorem resetSeqCompletes : Obligations.ResetSeqCompletes := by
  intro s hwf ans h
  have start := goes_of_admits (n := 0 + 4) h (t := resetTable) rfl rfl (paramFacts hwf) ans
  exact microRun_covered h start.reset_run rfl

/-- Settles O29: acceptance, and S6 to S11 run to the end. -/
theorem configureSeqCompletes : Obligations.ConfigureSeqCompletes := by
  intro s hwf ans h
  have start := goes_of_admits (n := 0 + 6) h (t := configureTable) rfl rfl (paramFacts hwf) ans
  exact microRun_covered h start.configure_run rfl

/-- Settles O31: SETUP's run. -/
theorem setupConfiguresDevice : Obligations.SetupConfiguresDevice := fun _ hwf ans h =>
  microRun_setup (paramFacts hwf) ans h

/-! ### SETUP twice -/

theorem firstFailing_setup {c : Ctrl} (hp : c.phase = .idle) (hb : c.bound = 1) : firstFailing .setup c = none := by
  simp [firstFailing_eq, hp, hb, isReservedOpcode, illegalOperands, needsReady]

/-- The state that SETUP leaves, with the enable bytes `en` (R144, R148). -/
def State.setUp (s : State) (en : Memory (Option Byte)) : State := { s with
  ctrl := { s.ctrl with cmd := some .setup, seqPc := none, ready := 1 }
  dev := { s.dev with
    banksel := some 0x01
    shutdown := some 0x01
    frame := some 0x00
    mode := some s.params.pictureMode
    audioSync := some 0x00
    en := en }
  settlePending := false
  env := s.env.commanded (resetEvents s.params ++ configureEvents s.params ++ enableEvents s.params) }

/-- SETUP's run, with its end state by name. -/
theorem microRun_setUp (hp : ParamFacts s.params) (ans : s.answersOk 14) (h : s.admits .setup) :
    ∃ en, microRun .setup 17 s = .next (s.setUp en) ∧ ∀ b < 2, ∀ j < s.params.enableRegCount,
      (s.setUp en).dev.enableByte b j = if j < 17 then some 0xFF else s.dev.enableByte b j :=
  microRun_setup hp ans h

/-- After SETUP the block admits SETUP again. -/
theorem State.setUp_admits {en : Memory (Option Byte)} (h : s.admits .setup) : (s.setUp en).admits .setup := by
  have idle := phase_of_firstFailing h.1
  have bound := bound_of_firstFailing h.1 rfl
  exact ⟨firstFailing_setup (c := (s.setUp en).ctrl) idle bound, h.2⟩

/-- Settles O32: the second SETUP writes the same bytes over what the first left. -/
theorem setupIsIdempotent : Obligations.SetupIsIdempotent := by
  intro s hwf ans h
  have facts := paramFacts hwf
  obtain ⟨en, first, hen⟩ := microRun_setUp facts (answersOk_mono ans (by omega)) h
  have left : (s.setUp en).answersOk 14 := answersOk_emitted (m := 14) ans rfl rfl
  obtain ⟨en', second, hen'⟩ := microRun_setUp (s := s.setUp en) facts left (State.setUp_admits h)
  refine ⟨_, _, first, second, fun r hr => ?_, rfl, rfl, _, rfl, rfl⟩
  cases r with
  | enable b j =>
    simp only [Target.exists, Bool.and_eq_true, decide_eq_true_eq] at hr
    obtain ⟨hb, hj⟩ := hr
    change Dev.enableByte _ b j = Dev.enableByte _ b j
    rw [hen' b hb j hj, hen b hb j hj]
    split_ifs <;> rfl
  | color | mode | frame | audioSync | shutdown => rfl

/-! ### No model fault in a fixed sequence -/

/-- R66 accepts a block inside the areas of the selected frame bank. -/
theorem transferFault_frameBlock (h : ParamFacts c) (hb : b = 0 ∨ b = 1) (hn : n ≠ 0)
    (hs : ∀ k < n, inEnableArea c (a.toNat + k) = true ∨ inColorArea c (a.toNat + k) = true) :
    transferFault c (some b) a n = none :=
  have ⟨ha, hreg⟩ := frameBlock_accepted h hb hn hs
  (transferFault_none_iff h ha).2 ⟨hn, b, rfl, hreg⟩

/-- The enable mask fits the enable area (R9, R140). -/
theorem transferFault_enableMask (h : ParamFacts c) (hb : b = 0 ∨ b = 1) :
    transferFault c (some b) c.enableBase 17 = none :=
  transferFault_frameBlock h hb (by decide) fun k hk =>
    .inl (inEnableArea_iff.2 ⟨by omega, by have := h.mask_fits; omega⟩)

/-- The colour block is the colour area (R62, R187). -/
theorem transferFault_colorBlock (h : ParamFacts c) (hb : b = 0 ∨ b = 1) :
    transferFault c (some b) c.colorBase 144 = none :=
  transferFault_frameBlock h hb (by decide) fun k hk => .inr (inColorArea_iff.2 ⟨by omega, by omega⟩)

/-- R66 accepts the transfer of every label but W1 and C2, with the bank selected that it is meant for (R221, R244). -/
theorem sequenceTransfer_accepted (h : ParamFacts s.params)
    (hb : ∀ b, bankNeeded s l = some b → s.dev.banksel = some b)
    (hw : l ≠ .W1) (hc : l ≠ .C2) (ha : labelAction s l = some (.xfer a p)) :
    transferFault s.params s.dev.banksel a p.length = none := by
  cases l with
  | W1 => exact absurd rfl hw
  | C2 => exact absurd rfl hc
  | C1 | S1 | S4 | S6 | S8 | S10 | S12 | S14 | U2 | U4 => cases ha; exact transferFault_select
  | S2 | S5 => cases ha; exact transferFault_one h h.bank_ne_shutdown.symm (hb _ rfl) (target_shutdown h)
  | S7 | U5 => cases ha; exact transferFault_one h h.bank_ne_frame.symm (hb _ rfl) (target_frame h)
  | S9 => cases ha; exact transferFault_one h h.bank_ne_mode.symm (hb _ rfl) (target_mode h)
  | S11 => cases ha; exact transferFault_one h h.bank_ne_audio.symm (hb _ rfl) (target_audioSync h)
  | S13 => cases ha; rw [hb _ rfl]; exact transferFault_enableMask h (.inl rfl)
  | S15 => cases ha; rw [hb _ rfl]; exact transferFault_enableMask h (.inr rfl)
  | U3 =>
    cases ha
    have hlen : (colorBlockBytes s).2.length = 144 := Goes.bufferBytes_length
    rw [hb _ rfl, hlen]
    exact transferFault_colorBlock h (Goes.activeByte_cases _)
  | _ => cases ha

/-- A call answers a next state where the caller goes on from `ok` and from `err`. -/
theorem callTransport_answers {ev : Answer → BusEvent} {f g : State → Out}
    (hok : ∃ w, f (s.takeAnswer (ev .ok)) = .next w) (herr : ∃ w, g (s.takeAnswer (ev .err)) = .next w) :
    ∃ w, callTransport ev f g s = .next w := by
  cases r : s.env.nextAnswer with
  | ok => exact callTransport_ok r ▸ hok
  | err => exact callTransport_err r ▸ herr
  | hang => exact ⟨_, callTransport_hang r⟩

/-- An action whose bytes R66 accepts answers a next state, whatever the transport answers. -/
theorem perform_answers (hf : ∀ a p, act = .xfer a p → transferFault s.params s.dev.banksel a p.length = none) :
    ∃ w, perform l act nxt s = .next w := by
  cases act with
  | xfer a p =>
    cases r : s.env.nextAnswer with
    | ok => exact ⟨_, perform_xfer_ok r (hf a p rfl)⟩
    | err => exact ⟨_, perform_xfer_err r (hf a p rfl)⟩
    | hang => exact ⟨_, callTransport_hang r⟩
  | openNode | bindAddress =>
    simp only [perform, openStep, bindStep]
    exact callTransport_answers ⟨_, rfl⟩ ⟨_, rfl⟩
  | testEnd => rw [perform]; split <;> exact ⟨_, rfl⟩
  | _ => exact ⟨_, rfl⟩

/-- Settles O57: R66 accepts the label's transfer, and nothing else of a micro-step can stop it. -/
theorem sequencesNeverFault : Obligations.SequencesNeverFault := by
  intro s i t l hwf hbank ht hl hr hw hc
  have ⟨_, cmd, pc, _⟩ := hr
  obtain ⟨act, ha⟩ := labelAction_of_mem ht hl cmd
  have selected : ∀ b, bankNeeded s l = some b → s.dev.banksel = some b := fun b => hbank l b pc
  rw [exec_perform ht hl hr ha]
  exact perform_answers fun a p e => sequenceTransfer_accepted (paramFacts hwf) selected hw hc (e ▸ ha)

end Sys2Proof.Machine
end

section
/-! SUPPORT. The pixel mapper: the index by its two branches, the map of a frame with one lit cell, and MAP from acceptance
to its end (42_pixel_mapper.md R161 to R171). -/

namespace Sys2Proof.Machine

variable {s : State} {x y x' y' : Nat}

/-! ### The index -/

/-- A column of the left half takes a block's bytes 0 to 6, from the last down (R162, R163). -/
theorem idx_of_le (hx : x ≤ 8) (hy : y < 7) : idx x y = 16 * (8 - x) + (6 - y) := by
  unfold idx idxInt
  rw [if_pos (by omega)]
  omega

/-- A column of the right half takes a block's bytes 8 to 14, from the first up (R162, R163). -/
theorem idx_of_ge (hx : 9 ≤ x) : idx x y = 16 * (x - 9) + (8 + y) := by
  unfold idx idxInt
  rw [if_neg (by omega)]
  omega

/-- Two cells have one index only where they are one cell (R163). -/
theorem idx_inj (hx : x < 17) (hy : y < 7) (hx' : x' < 17) (hy' : y' < 7) :
    idx x y = idx x' y' ↔ x = x' ∧ y = y' :=
  ⟨idx_injective hx hy hx' hy', fun ⟨ex, ey⟩ => ex ▸ ey ▸ rfl⟩

/-- Settles O34: the table by evaluation, the blocks by the two branches. -/
theorem indexTableRangeAndInjectivity : Obligations.IndexTableRangeAndInjectivity := by
  refine ⟨by decide, fun x hx y hy => ⟨fun left => ?_, fun right => ?_, idx_le hx hy, fun x' hx' y' hy' =>
    idx_injective hx hy hx' hy'⟩⟩
  · rw [idx_of_le left hy]; omega
  · rw [idx_of_ge right]; omega

/-! ### One lit cell -/

/-- Settles O35: a byte that some cell maps to is that cell, lit at `idx(x, y)` only; every other byte is zero. -/
theorem singlePixelMapsToOneByte : Obligations.SinglePixelMapsToOneByte := by
  intro f x y v hx hy _ hf k _
  by_cases mapped : ∃ x' < 17, ∃ y' < 7, idx x' y' = k
  · obtain ⟨x', hx', y', hy', rfl⟩ := mapped
    rw [bufferByte_mapFrame hx' hy', hf x' hx' y' hy']
    exact if_congr (idx_inj hx' hy' hx hy).symm rfl rfl
  · have unmapped : ∀ x' < 17, ∀ y' < 7, idx x' y' ≠ k := by simpa using mapped
    rw [bufferByte_mapFrame_unmapped unmapped, if_neg (unmapped x hx y hy).symm]

/-! ### MAP -/

/-- M1 (R161, R169). -/
theorem exec_map (h : s.runsAt .map .M1) : exec .map s = .next (s.mapBuffer.goto none) :=
  exec_perform (act := .mapBuffer) rfl (by decide) h rfl

/-- MAP, from acceptance to `IDLE` (R169, R171). -/
theorem microRun_map (h : s.admits .map) :
    microRun .map 2 s = .next { s with
      ctrl := { s.ctrl with cmd := some .map, seqPc := none, pbuf := mapFrame s.ctrl.lframe }
      env := s.env.commanded [] } := by
  have mapped := exec_map (s := s.accept .map (some .M1)) ⟨rfl, rfl, rfl, h.2⟩
  refine (microRun_trans (microRun_one (exec_admitted rfl h.1)) (microRun_one mapped)).trans (congrArg _ ?_)
  exact State.eq_of_end_idle (phase_of_firstFailing h.1) rfl rfl rfl rfl rfl rfl

/-- Settles O33: MAP leaves the mapped frame in `PBUF`, whatever it held. -/
theorem mapFillsBuffer : Obligations.MapFillsBuffer := fun _ h =>
  ⟨_, microRun_map h, fun _ hx _ hy => bufferByte_mapFrame hx hy, fun _ _ => bufferByte_mapFrame_unmapped⟩

end Sys2Proof.Machine
end

section
/-! SUPPORT. The rasterizer's columns (43_scroll_sequencer.md R182 to R185): what a glyph, and a text, leaves alone. -/

namespace Sys2Proof.Machine

open Sys2Proof.Config

variable {c : Params} {f g : ByteMemory} {o : Int} {ch : Char} {x y : Nat} {xy : Nat × Nat}

/-! ### One glyph -/

theorem inGlyph_iff {w : Nat} : inGlyph o w x = true ↔ o ≤ x ∧ (x : Int) < o + w := by
  simp [inGlyph]

/-- One cell painted is one of the glyph's columns (R184). -/
theorem frameCell_paintCell (hxy : xy ∈ cellList) (hx : x < 17) (out : ¬ inGlyph o (advanceWidth c ch) x) :
    frameCell (paintCell c f o ch g xy) x y = frameCell g x y := by
  unfold paintCell
  split
  · rename_i inside
    have other : x ≠ xy.1 := by rintro rfl; exact out inside
    cases glyphInk c f o ch xy.1 xy.2 with
    | none => rfl
    | some v => exact (frameCell_setFrameCell (mem_cellList.1 hxy).1 hx).trans (if_neg fun e => other e.1)
  · rfl

theorem frameCell_drawGlyph (hx : x < 17) (out : (x : Int) < o ∨ o + advanceWidth c ch ≤ x) :
    frameCell (drawGlyph c f o ch).1 x y = frameCell f x y := by
  have outside : ¬ inGlyph o (advanceWidth c ch) x := by rw [inGlyph_iff]; omega
  exact List.foldlRecOn cellList (paintCell c f o ch) (motive := fun g => frameCell g x y = frameCell f x y) rfl
    fun _ same _ hxy => (frameCell_paintCell hxy hx outside).trans same

/-- Settles O46: each cell painted lies in the glyph's columns. -/
theorem glyphStaysInItsColumns : Obligations.GlyphStaysInItsColumns :=
  fun _ _ _ _ _ _ hx _ out => frameCell_drawGlyph hx out

/-! ### A text -/

theorem le_renderText_cursor {text : List Char} {first : Bool} : o ≤ (renderText c text first f o).2 := by
  rw [renderText_cursor]
  omega

theorem renderText_cons {text : List Char} {first : Bool} : renderText c (ch :: text) first f o =
    renderText c text false (drawGlyph c f (if first then o else o + 1) ch).1
      ((if first then o else o + 1) + advanceWidth c ch) := rfl

/-- The glyphs left paint between the cursor and where it ends (R182, R184). -/
theorem frameCell_renderText {text : List Char} {first : Bool} (hx : x < 17)
    (out : (x : Int) < o ∨ (renderText c text first f o).2 ≤ x) :
    frameCell (renderText c text first f o).1 x y = frameCell f x y := by
  induction text generalizing first f o with
  | nil => rfl
  | cons ch text ih =>
    rw [renderText_cons] at out ⊢
    have behind : o ≤ if first then o else o + 1 := by split <;> omega
    generalize (if first then o else o + 1) = start at out behind ⊢
    have rest := le_renderText_cursor (c := c) (f := (drawGlyph c f start ch).1) (o := start + advanceWidth c ch)
      (text := text) (first := false)
    exact (ih (by omega)).trans (frameCell_drawGlyph hx (by omega))

/-- No cell outside the text's columns is painted (R182, R184). -/
theorem frameCell_render (hx : x < 17) (out : (x : Int) < o ∨ o + textWidth c ≤ x) :
    frameCell (render c o).1 x y = 0x00 := by
  have width : (renderText c c.displayText true [] o).2 - o = textWidth c := render_width
  exact frameCell_renderText hx (by omega)

/-- Settles O45: the cursor's way is the text's width, and what is painted lies on it. -/
theorem renderWidthAndColumns : Obligations.RenderWidthAndColumns :=
  fun _ _ => ⟨render_width, fun _ _ hx _ out => frameCell_render hx out⟩

end Sys2Proof.Machine
end

section
/-! SUPPORT. SCROLL_INIT, and K1 to K3 of a tick that goes on or ends the scroll (43_scroll_sequencer.md R181, R189, R190). -/

namespace Sys2Proof.Machine

open Sys2Proof.Config

variable {s : State} {i : Instr} {t : Table}

/-! ### SCROLL_INIT -/

/-- I1 in SCROLL_INIT (R181). -/
theorem exec_scrollInit (h : s.runsAt .scrollInit .I1) : exec .scrollInit s = .next (s.initScroll.goto none) :=
  exec_perform (act := .initScroll) rfl (by decide) h rfl

/-- Settles O39: acceptance, and I1. -/
theorem scrollInitCompletes : Obligations.ScrollInitCompletes := by
  intro s h
  have zeroed := exec_scrollInit (s := s.accept .scrollInit (some .I1)) ⟨rfl, rfl, rfl, h.2⟩
  refine (microRun_trans (microRun_one (exec_admitted rfl h.1)) (microRun_one zeroed)).trans (congrArg _ ?_)
  exact State.eq_of_end_idle (phase_of_firstFailing h.1) rfl rfl rfl rfl rfl rfl

/-! ### K1 to K3 -/

/-- The commands that run ticks, by their table (R189, R191, R192). -/
theorem tick_table (hi : i = .tick ∨ i = .scroll ∨ i = .run) :
    ∃ t, commandTable i = some t ∧ .K1 ∈ t.labels ∧ .K2 ∈ t.labels ∧ .K3 ∈ t.labels := by
  rcases hi with rfl | rfl | rfl <;> exact ⟨_, rfl, by decide, by decide, by decide⟩

/-- K1 to K3: one column on, the text rendered there, and the test (R189). -/
theorem microRun_scrolled (hi : i = .tick ∨ i = .scroll ∨ i = .run) (h : s.runsAt i .K1) :
    microRun i 3 s = .next (if scrolledOut s.scrolled.ctrl then s.scrolled.finish else s.scrolled) := by
  obtain ⟨t, table, at1, at2, at3⟩ := tick_table hi
  have ⟨busy, cmd, _, free⟩ := h
  let u := s.stepOffset.goto (some .K2)
  let w := u.renderFrame.goto (some .K3)
  have stepped : exec i s = .next u := exec_perform table at1 h rfl
  have rendered : exec i u = .next w := exec_perform (s := u) table at2 ⟨busy, cmd, rfl, free⟩ rfl
  have tested : exec i w = .next (if scrolledOut s.scrolled.ctrl then s.scrolled.finish else s.scrolled) := by
    rw [exec_perform table at3 (s := w) ⟨busy, cmd, rfl, free⟩ (act := .testEnd) rfl, perform, ← apply_ite Host.Outcome.next]
    rfl
  exact microRun_trans (microRun_one stepped) (microRun_trans (microRun_one rendered) (microRun_one tested))

/-- `TEXTW` after K2 is the text's width (R10, R183). -/
theorem toInt_textWidth {c : Params} (h : textFits c = true) : (BitVec.ofNat 32 (textWidth c)).toInt = textWidth c := by
  rw [← BitVec.ofInt_natCast, toInt_ofInt_of_textFits h]

theorem ScrollInRange.toInt_textw_scrolled (h : ScrollInRange s) :
    s.scrolled.ctrl.textw.toInt = textWidth s.params := by
  rw [h.scrolled_eq, toInt_textWidth h.text_fits]

/-- At K1 in range, the tick ends the scroll exactly when the text has left the window on Int (R10, R190). -/
theorem ScrollInRange.scrolledOut_scrolled_iff (h : ScrollInRange s) (busy : s.ctrl.phase = .busy)
    (pc : s.ctrl.seqPc = some .K1) :
    scrolledOut s.scrolled.ctrl = true ↔ s.ctrl.offset.toInt - 1 + 17 + textWidth s.params < 0 := by
  have range := (h.stepOffset (by simp [busy]) pc).renderFrame
  rw [← h.toInt_textw_scrolled, ← h.toInt_offset_sub_one]
  exact range.scrolledOut_iff

/-- K1 to K3 on Int: what the tick leaves, by whether it ends the scroll (R189, R190, R219). -/
theorem ScrollInRange.microRun_scrolled (h : ScrollInRange s) (hi : i = .tick ∨ i = .scroll ∨ i = .run)
    (hs : s.runsAt i .K1) :
    microRun i 3 s = .next
      (if s.ctrl.offset.toInt - 1 + 17 + textWidth s.params < 0 then s.scrolled.finish else s.scrolled) := by
  have ⟨busy, _, pc, _⟩ := hs
  rw [Machine.microRun_scrolled hi hs]
  exact congrArg _ (if_congr (h.scrolledOut_scrolled_iff busy pc) rfl rfl)

/-- Settles O40: K1 and K2 as they are, and K3's two ways. -/
theorem tickRendersAndTests : Obligations.TickRendersAndTests := by
  intro s i h hi hs
  have ⟨busy, _, _, _⟩ := hs
  refine ⟨_, h.microRun_scrolled hi hs, ?_⟩
  rw [h.scrolled_eq]
  split
  · exact ⟨rfl, rfl, rfl, rfl, h.toInt_offset_sub_one, rfl⟩
  · refine ⟨rfl, rfl, rfl, rfl, h.toInt_offset_sub_one, ?_⟩
    rw [← busy]

end Sys2Proof.Machine
end

section
/-! SUPPORT. The scroll of SCROLL and RUN: tick after tick from I1 (43_scroll_sequencer.md R180, R191, R193), its end at tick
`18 + W` (R190, R194), and RUN from acceptance (R192). -/

namespace Sys2Proof.Machine

open Sys2Proof.Config

variable {s w : State} {i : Instr} {t : Table} {n k m : Nat}

/-! ### After k ticks -/

/-- The outputs of the first `k` ticks (R180, R187). -/
def scrollEvents (c : Params) (k : Nat) : List BusEvent := (List.range k).flatMap fun m => tickEvents c (m + 1)

theorem scrollEvents_succ {c : Params} : scrollEvents c (k + 1) = scrollEvents c k ++ tickEvents c (k + 1) := by
  simp [scrollEvents, List.range_succ]

theorem countP_tickEvents {c : Params} : (tickEvents c m).countP BusEvent.isCall = 4 := rfl

theorem countP_scrollEvents {c : Params} : (scrollEvents c k).countP BusEvent.isCall = 4 * k := by
  induction k with
  | zero => rfl
  | succ k ih => rw [scrollEvents_succ, List.countP_append, ih, countP_tickEvents, Nat.mul_succ]

/-- The registers of CTRL that a scroll writes, and `SEQ_PC`, as in `v` (R22). -/
def Ctrl.withScroll (c v : Ctrl) : Ctrl := { c with
  seqPc := v.seqPc
  active := v.active
  offset := v.offset
  textw := v.textw
  lframe := v.lframe
  pbuf := v.pbuf }

/-- The registers of DEV that a frame update writes as in `v` (R187). -/
def Dev.withUpdate (d v : Dev) : Dev := { d with banksel := v.banksel, frame := v.frame, col := v.col }

/-- `w` stands at K1 after `k` ticks of a scroll that was at I1 in `s` (R180, R181, R187, R189, R193). -/
structure Ticked (s w : State) (k : Nat) : Prop where
  ctrl : w.ctrl = s.ctrl.withScroll w.ctrl
  at_tick : w.ctrl.seqPc = some .K1
  offset : w.ctrl.offset.toInt = -k
  active : w.ctrl.active.toNat = k % 2
  textw : w.ctrl.textw.toInt = if k = 0 then 0 else (textWidth s.params : Int)
  dev : w.dev = s.dev.withUpdate w.dev
  selected : 1 ≤ k → w.dev.banksel = some s.params.configBank
  shown : 1 ≤ k → w.dev.frame = some (BitVec.ofNat 8 ((k - 1) % 2))
  colors : ∀ m, 1 ≤ m → m ≤ k → k ≤ m + 1 → ∀ j < 144,
    w.dev.colorByte ((m - 1) % 2) j = some (bufferByte (mapFrame (render s.params (17 - m)).1) j)
  settle : w.settlePending = s.settlePending
  env : w.env = s.env.emitted (scrollEvents s.params k)
  params : w.params = s.params

/-- I1 starts the scroll (R181). -/
theorem Ticked.start : Ticked s (s.initScroll.goto (some .K1)) 0 where
  ctrl := rfl
  at_tick := rfl
  offset := rfl
  active := rfl
  textw := rfl
  dev := rfl
  selected := by simp
  shown := by simp
  colors := by omega
  settle := rfl
  env := rfl
  params := rfl

/-- Up to tick `17 + W` the scroll is in range (R10). -/
theorem Ticked.range (h : Ticked s w k) (facts : ParamFacts s.params) (hk : k ≤ 17 + textWidth s.params) :
    ScrollInRange w := by
  have params := h.params
  have offset := h.offset
  have textw : 0 ≤ w.ctrl.textw.toInt ∧ w.ctrl.textw.toInt ≤ textWidth s.params := by
    rw [h.textw]
    split <;> omega
  rw [← params] at hk textw
  exact {
    text_fits := by simpa [textFits, params] using facts.text_fits
    textw_nonneg := textw.1
    textw_le := textw.2
    offset_le := by omega
    offset_ge := by omega
    offset_between_ticks := fun _ _ _ => by omega }

/-- The scroll goes on from K1, with the answers that its ticks have left. -/
theorem Ticked.goes (h : Ticked s w k) (start : Goes s i t .I1 (n + 4 * k)) (hi : i = .scroll ∨ i = .run) :
    Goes w i t .K1 n where
  runs := by
    have ⟨busy, cmd, _, free⟩ := start.runs
    exact ⟨h.ctrl ▸ busy, h.ctrl ▸ cmd, h.at_tick, h.env ▸ free⟩
  table := start.table
  label := start.next_mem (by rcases hi with rfl | rfl <;> rfl)
  facts := h.params ▸ start.facts
  answers := answersOk_emitted (m := 4 * k) (Nat.add_comm n _ ▸ start.answers) countP_scrollEvents (by rw [h.env])

/-- The frame that the next tick renders (R189). -/
def State.nextFrame (w : State) : ByteMemory := (render w.params (w.ctrl.offset.toInt - 1 + 17)).1

/-- The state at K1 after the next tick, with the colour bytes `col` (R187, R189). -/
def State.tickedTo (w : State) (col : Memory (Option Byte)) : State := { w with
  ctrl := { w.ctrl with
    seqPc := some .K1
    offset := w.ctrl.offset - 1
    textw := BitVec.ofNat 32 (textWidth w.params)
    lframe := w.nextFrame
    pbuf := mapFrame w.nextFrame
    active := w.ctrl.active ^^^ 1 }
  dev := { w.dev with
    banksel := some w.params.configBank
    frame := some (w.ctrl.active.setWidth 8)
    col := col }
  env := w.env.emitted
    (updateEvents w.params (w.ctrl.active.setWidth 8) (bufferBytes (mapFrame w.nextFrame)) ++ [.wait 100]) }

/-- `col` holds the next tick's frame in bank `ACTIVE`, and the other bank as it was (R187). -/
def State.ColorsTicked (w : State) (col : Memory (Option Byte)) : Prop :=
  ∀ c, ∀ j < 144, ({ w.dev with col := col } : Dev).colorByte c j =
    if c = w.ctrl.active.toNat then some (bufferByte (mapFrame w.nextFrame) j) else w.dev.colorByte c j

/-- One tick of SCROLL or RUN that goes on, from K1 to K1 (R189, R191). -/
theorem Goes.tick_again (h : Goes w i t .K1 (n + 4)) (range : ScrollInRange w) (hi : i = .scroll ∨ i = .run)
    (go : 0 ≤ w.ctrl.offset.toInt - 1 + 17 + textWidth w.params) :
    ∃ col, microRun i 10 w = .next (w.tickedTo col) ∧ w.ColorsTicked col := by
  obtain ⟨col, tick, hcol⟩ := h.tick_run range go
  have again : nextLabel i .K4 = some .K1 := by rcases hi with rfl | rfl <;> rfl
  rw [again, range.scrolled_eq] at tick
  rw [range.scrolled_eq] at hcol
  refine ⟨col, tick.trans (congrArg _ ?_), hcol⟩
  rfl

theorem toNat_toggle : ∀ a : U1, (a ^^^ 1).toNat = (a.toNat + 1) % 2 := by decide

/-- One more tick: the bank written is the other one (R187, R189, R193). -/
theorem Ticked.next {col : Memory (Option Byte)} (h : Ticked s w k) (range : ScrollInRange w)
    (hcol : w.ColorsTicked col) : Ticked s (w.tickedTo col) (k + 1) := by
  have hp := h.params
  have bank : (w.ctrl.active.setWidth 8 : Byte) = BitVec.ofNat 8 (k % 2) := by rw [← BitVec.ofNat_toNat, h.active]
  have frame : w.nextFrame = (render s.params (17 - (k + 1 : Nat))).1 := by
    have cursor : -(k : Int) - 1 + 17 = 17 - (k + 1 : Nat) := by omega
    rw [State.nextFrame, hp, h.offset, cursor]
  exact {
    ctrl := congrArg (·.withScroll (w.tickedTo col).ctrl) h.ctrl
    at_tick := rfl
    offset := by
      refine range.toInt_offset_sub_one.trans ?_
      rw [h.offset]
      omega
    active := by
      refine (toNat_toggle _).trans ?_
      rw [h.active]
      omega
    textw := by
      rw [if_neg k.succ_ne_zero, ← hp]
      exact toInt_textWidth range.text_fits
    dev := congrArg (·.withUpdate (w.tickedTo col).dev) h.dev
    selected := fun _ => congrArg (fun c : Params => some c.configBank) hp
    shown := fun _ => congrArg some bank
    colors := fun m one le ge j hj => by
      refine (hcol _ j hj).trans ?_
      rw [h.active]
      obtain rfl | hm := Nat.eq_or_lt_of_le le
      · rw [if_pos (by simp), frame]
      · rw [if_neg (by omega)]
        exact h.colors m one (by omega) (by omega) j hj
    settle := h.settle
    env := by
      rw [State.tickedTo, h.env, Env.emitted_append, scrollEvents_succ, bank, frame, hp]
      rfl
    params := hp }

/-- I1, and `k` ticks that go on (R180, R191). -/
theorem ticks_run (start : Goes s i t .I1 (n + 4 * k)) (hi : i = .scroll ∨ i = .run) (hk : k ≤ 17 + textWidth s.params) :
    ∃ w, microRun i (1 + 10 * k) s = .next w ∧ Ticked s w k := by
  have enters : nextLabel i .I1 = some .K1 := by rcases hi with rfl | rfl <;> rfl
  induction k generalizing n with
  | zero =>
    have init := start.exec_local (act := .initScroll) rfl rfl nofun
    rw [enters] at init
    exact ⟨_, microRun_one init, .start⟩
  | succ k ih =>
    have start' : Goes s i t .I1 (n + 4 + 4 * k) := by rwa [Nat.mul_succ, ← Nat.add_assoc, Nat.add_right_comm] at start
    obtain ⟨w, run, ticked⟩ := ih start' (by omega)
    have range := ticked.range start.facts (by omega)
    obtain ⟨col, tick, hcol⟩ := (ticked.goes start' hi).tick_again range hi
      (by rw [ticked.offset, ticked.params]; omega)
    rw [Nat.mul_succ, ← Nat.add_assoc]
    exact ⟨w.tickedTo col, microRun_trans run tick, ticked.next range hcol⟩

/-- SCROLL and RUN at I1 (R191, R192). -/
theorem goes_of_runsAt_I1 (hi : i = .scroll ∨ i = .run) (hs : s.runsAt i .I1) (facts : ParamFacts s.params)
    (ans : s.answersOk n) : ∃ t, Goes s i t .I1 n := by
  rcases hi with rfl | rfl <;> exact ⟨_, hs, rfl, by decide, facts, ans⟩

/-- Settles O42: `k` ticks leave what `Ticked` lists. -/
theorem scrollAlternatesBanks : Obligations.ScrollAlternatesBanks := by
  intro s i k hwf hi hs hk ans
  obtain ⟨t, start⟩ := goes_of_runsAt_I1 (n := 0 + 4 * k) hi hs (paramFacts hwf) (by rwa [Nat.zero_add])
  obtain ⟨w, run, h⟩ := ticks_run start hi hk
  refine ⟨w, run, (h.goes start hi).runs, h.offset, h.active, h.env, fun one => ⟨?_, ?_⟩, h.colors⟩
  · rw [← h.selected one, ← h.shown one]
    exact h.dev
  · rw [h.textw, if_neg (by omega)]

/-! ### The end of the scroll -/

/-- The whole scroll from I1: `17 + W` ticks that go on, and the one that ends it (R190, R191, R194). -/
theorem scroll_ends (hi : i = .scroll ∨ i = .run) (start : Goes s i t .I1 (4 * (17 + textWidth s.params))) :
    ∃ w, microRun i (1 + 10 * (17 + textWidth s.params)) s = .next w ∧ Ticked s w (17 + textWidth s.params) ∧
      w.runsAt i .K1 ∧ ScrollInRange w ∧ microRun i 3 w = .next w.scrolled.finish := by
  rw [← Nat.zero_add (4 * _)] at start
  obtain ⟨w, run, h⟩ := ticks_run start hi le_rfl
  have at1 := (h.goes start hi).runs
  have range := h.range start.facts le_rfl
  have last := range.microRun_scrolled (.inr hi) at1
  rw [if_pos (by rw [h.offset, h.params]; omega)] at last
  exact ⟨w, run, h, at1, range, last⟩

/-- A configured device stays configured (R148, R187). -/
theorem Ticked.configured (h : Ticked s w k) (hc : Configured s) : Configured w where
  shutdown := h.dev ▸ hc.shutdown
  mode := h.params ▸ h.dev ▸ hc.mode
  audioSync := h.dev ▸ hc.audioSync
  settled := h.settle.trans hc.settled
  enabled := h.dev ▸ hc.enabled

/-- The offset that the last tick leaves (R194). -/
theorem Ticked.last_offset (h : Ticked s w (17 + textWidth s.params)) (range : ScrollInRange w) :
    w.scrolled.finish.ctrl.offset.toInt = -(18 + textWidth s.params : Int) := by
  refine range.toInt_offset_sub_one.trans ?_
  rw [h.offset]
  omega

/-- The bank that the last frame written is in is the one displayed (R193, R194). -/
theorem Ticked.last_shown (h : Ticked s w (17 + textWidth s.params)) :
    w.dev.frame = some (BitVec.ofNat 8 ((16 + textWidth s.params) % 2)) := by
  rw [h.shown (by omega)]
  congr 3
  omega

/-- Settles O43: the text's last column leaves the window at tick `18 + W`. -/
theorem scrollEndsAtTick18PlusW : Obligations.ScrollEndsAtTick18PlusW := by
  intro s i hwf hi hs ans
  obtain ⟨t, start⟩ := goes_of_runsAt_I1 hi hs (paramFacts hwf) ans
  obtain ⟨w, run, h, ⟨busy, _, _, _⟩, range, last⟩ := scroll_ends hi start
  refine ⟨w, _, run, busy, last, rfl, rfl, rfl, h.last_offset range, h.active, h.last_shown, fun x hx y _ => ?_, rfl⟩
  show frameCell w.scrolled.ctrl.lframe x y = _
  rw [range.scrolled_eq]
  exact frameCell_render hx (.inr (by rw [h.offset, h.params]; omega))

/-! ### RUN -/

/-- S1 to S16 in RUN: the device is configured, and the scroll begins (R140, R144, R148, R192). -/
theorem Goes.run_setup (h : Goes s .run t .S1 (n + 14)) :
    ∃ v, microRun .run 16 s = .next v ∧ Goes v .run t .I1 n ∧ Configured v ∧
      v.ctrl = { s.ctrl with ready := 1, seqPc := some .I1 } ∧ v.env.draws = s.env.draws + 14 ∧ v.params = s.params := by
  have reset := Goes.reset_run (n := n + 10) h
  have configured := reset.trans (Goes.configure_run (n := n + 4) (reset.goes .S6 rfl))
  obtain ⟨en, enabled, hen⟩ := (configured.goes .S12 rfl).enable_run
  have all := configured.trans enabled
  have at16 := all.goes .S16 rfl
  have ⟨busy, cmd, _, free⟩ := at16.runs
  have marked := at16.exec_local (act := .markReady) rfl rfl nofun
  have mask : ∀ b < 2, ∀ j < 17, ({ s.dev with en := en } : Dev).enableByte b j = some 0xFF :=
    fun b hb j hj => (hen b hb j (hj.trans_le h.facts.mask_fits)).trans (if_pos hj)
  exact ⟨_, microRun_trans all.run (microRun_one marked),
    { at16 with runs := ⟨busy, cmd, rfl, free⟩, label := at16.next_mem rfl }, ⟨rfl, rfl, rfl, rfl, mask⟩, rfl, rfl, rfl⟩

/-- One answer taken. -/
theorem answersOk_takeAnswer {ev : BusEvent} (h : s.answersOk (n + 1)) : (s.takeAnswer ev).answersOk n := by
  have left := congrArg List.tail h
  rwa [List.tail_take_eq_take_tail] at left

/-- RUN at O2, with the transport opened (R122). -/
def State.runOpened (s : State) : State :=
  ((s.accept .run (some .O1)).takeAnswer (.openCall s.params.devicePath .ok)).setOpened.goto (some .O2)

/-- RUN at S1, with the transport opened and bound (R123, R192). -/
def State.runBound (s : State) : State :=
  ((s.runOpened.takeAnswer (.bindCall s.params.deviceAddress .ok)).setBound.enterSetup (some .S1)).goto (some .S1)

/-- RUN, from acceptance to S1 (R192). -/
theorem microRun_run_bound (facts : ParamFacts s.params) (h : s.admits .run) (ans : s.answersOk (n + 2)) :
    microRun .run 3 s = .next s.runBound ∧ Goes s.runBound .run runTable .S1 n := by
  have at1 : Goes (s.accept .run (some .O1)) .run runTable .O1 (n + 1 + 1) := goes_of_admits h rfl rfl facts ans
  have opened : exec .run (s.accept .run (some .O1)) = .next s.runOpened :=
    (exec_openStep (.inr rfl) at1.runs).trans (openStep_ok at1.nextAnswer)
  have left : s.runOpened.answersOk (n + 1) := answersOk_takeAnswer at1.answers
  have bound : exec .run s.runOpened = .next s.runBound :=
    (exec_bindStep (s := s.runOpened) (.inr rfl) ⟨rfl, rfl, rfl, h.2⟩).trans (bindStep_ok (nextAnswer_of_answersOk left))
  exact ⟨microRun_trans (microRun_one (exec_admitted rfl h.1)) (microRun_trans (microRun_one opened) (microRun_one bound)),
    ⟨rfl, rfl, rfl, h.2⟩, rfl, by decide, facts, answersOk_takeAnswer left⟩

/-- Settles O44: open, bind and setup, and the whole scroll behind them. -/
theorem runScrollsWholeText : Obligations.RunScrollsWholeText := by
  intro s hwf h ans
  rw [Nat.add_comm] at ans
  obtain ⟨bound, atS1⟩ := microRun_run_bound (n := 4 * (17 + textWidth s.params) + 14) (paramFacts hwf) h ans
  obtain ⟨v, setup, atI1, configured, ctrl, draws, params⟩ := atS1.run_setup
  have params : v.params = s.params := params
  rw [← params] at atI1 ⊢
  obtain ⟨w, run, ticked, _, range, last⟩ := scroll_ends (.inr rfl) atI1
  have kept : w.ctrl = ({ s.runBound.ctrl with ready := 1 } : Ctrl).withScroll w.ctrl := by
    rw [ticked.ctrl, ctrl]
    rfl
  have made : w.env.draws = s.env.draws + 16 + 4 * (17 + textWidth v.params) := by
    rw [ticked.env]
    exact congrArg₂ (· + ·) draws countP_scrollEvents
  have count : 23 + 10 * (17 + textWidth v.params) = 3 + (16 + (1 + 10 * (17 + textWidth v.params) + 3)) := by omega
  rw [count]
  refine ⟨_, microRun_trans bound (microRun_trans setup (microRun_trans run last)), rfl, rfl, congrArg Ctrl.opened kept,
    congrArg Ctrl.bound kept, congrArg Ctrl.ready kept, (congrArg Ctrl.cause kept).trans rfl, ticked.last_offset range,
    ticked.params ▸ range.toInt_textw_scrolled, { ticked.configured configured with }, ticked.last_shown, made⟩

end Sys2Proof.Machine
end

section
/-! SUPPORT. The stops and failures of 60_exceptions.md: the reasons of a model fault (R220), the error of a transfer that
returned `err` (R211, R214 to R216), a call that never returns (R217, R227), and a refused command (R222). -/

namespace Sys2Proof.Machine

open Sys2Proof.Config

variable {s : State} {c : Params} {i : Instr} {l : Label} {t : Table} {nxt : Option Label} {act : Action} {a b : Byte}
  {p : List Byte} {n : Nat} {sel : Option Byte} {f : Fault} {ev : BusEvent}

/-! ### R66's reasons, in order -/

theorem transferFault_bankRegisterBlock (h0 : n ≠ 0) (h1 : n ≠ 1) :
    transferFault c sel c.bankRegister n = some .bankRegisterBlock := by
  unfold transferFault
  rw [if_neg h0, if_pos rfl, if_neg h1]

theorem transferFault_bankUnknown (h0 : n ≠ 0) (ha : a ≠ c.bankRegister) :
    transferFault c none a n = some .bankUnknown := by
  rw [transferFault, if_neg h0, if_neg ha]

/-- A bank-relative transfer under a known bank is checked for its bank, its last address, and each of its registers. -/
theorem transferFault_relative (h0 : n ≠ 0) (ha : a ≠ c.bankRegister) :
    transferFault c (some b) a n =
      if ¬ (b = 0 ∨ b = 1 ∨ b = c.configBank) then some .unmodelledBank
      else if 0xFF < a.toNat + n - 1 then some .addressOverflow
      else if ∀ k < n, (target c b (a.toNat + k)).isSome = true then none
      else some .undefinedRegister := by
  simp only [transferFault, if_neg h0, if_neg ha, isFrameBank, span_iff, Bool.not_eq_true', ← Bool.not_eq_true,
    Bool.or_eq_true, beq_iff_eq, or_assoc, gt_iff_lt]

/-! ### `XRESERVED` -/

theorem exec_xreserved_fault (hf : transferFault s.params s.dev.banksel a p.length = some f) :
    exec (.xreserved a p) s = .fault f := by
  rw [exec, execXreserved, hf]

/-- Neither the fault nor the refusal is a next state. -/
theorem exec_xreserved_ne_next {w : State} : exec (.xreserved a p) s ≠ .next w := by
  rw [exec, execXreserved]
  split <;> nofun

/-- Settles O11: `XRESERVED` stops with the fault that R66's checks give, each where the checks before it pass. -/
theorem reservedTransferStops : Obligations.ReservedTransferStops := by
  intro s a p hp
  have h0 : p.length ≠ 0 := by simpa using hp
  refine ⟨fun w => exec_xreserved_ne_next, fun hbank h1 => ?_, fun ha => ⟨fun hsel => ?_, fun b hsel => ?_⟩⟩
  · exact exec_xreserved_fault (hbank ▸ transferFault_bankRegisterBlock h0 h1)
  · exact exec_xreserved_fault (hsel ▸ transferFault_bankUnknown h0 ha)
  · have checks := hsel ▸ transferFault_relative (b := b) h0 ha
    refine ⟨fun hne0 hne1 hnec => exec_xreserved_fault (checks.trans ?_), fun hb => ⟨fun hover => ?_, fun hfit hundef => ?_⟩⟩
    · rw [if_pos (not_or.2 ⟨hne0, not_or.2 ⟨hne1, hnec⟩⟩)]
    · refine exec_xreserved_fault (checks.trans ?_)
      rw [if_neg (not_not.2 hb), if_pos hover]
    · obtain ⟨k, hk, hnone⟩ := hundef
      have hreg : ¬ ∀ k < p.length, (target s.params b (a.toNat + k)).isSome = true := fun h => by
        simpa [hnone] using h k hk
      refine exec_xreserved_fault (checks.trans ?_)
      rw [if_neg (not_not.2 hb), if_neg (by omega), if_neg hreg]

/-! ### A transfer that returned `err` -/

/-- Settles O13: the transfer's partial effect leaves CTRL alone, and the error raised over it is the one of R211's table. -/
theorem failedTransferRaises : Obligations.FailedTransferRaises := by
  intro s i t l a p ht hl hr ha hans hf
  let u := havocTransfer a p (s.takeAnswer (.transfer (a :: p) .err))
  have ctrl : u.ctrl = s.ctrl := havocTransfer_ctrl
  have params : u.params = s.params := havocTransfer_params
  have ⟨_, cmd, _, _⟩ := hr
  obtain ⟨cause, inner, hcause, hraise⟩ := raiseTransfer_eq (s := u) (ctrl ▸ cmd) ht hl ha
  refine ⟨u.raise cause inner l, cause, inner, ?_, hcause, ?_, ?_, params⟩
  · rw [exec_perform ht hl hr ha, perform_xfer_err hans hf, hraise]
  · rw [State.raise, ctrl, params]
  · exact storeTransfer_env

/-! ### A call that never returns -/

/-- The calls of the transport are the actions with an event: a hung one is recorded, and the state otherwise stays. -/
theorem perform_hang (hc : callEvent s act .hang = some ev) (r : s.env.nextAnswer = .hang) :
    perform l act nxt s = .next (s.takeAnswer ev).hang := by
  cases act with
  | xfer a p => cases hc; exact callTransport_hang r
  | openNode => cases hc; rw [perform, openStep, callTransport_hang r]
  | bindAddress => cases hc; rw [perform, bindStep, callTransport_hang r]
  | _ => cases hc

/-- While a call hangs the executing command makes no step (R227). -/
theorem exec_hung (ht : commandTable i = some t) (he : s.executing i = true) (hh : s.env.hung = true) :
    exec i s = .next s := by
  rw [exec_executing ht he, microStep, if_pos hh]

theorem microRun_hung (ht : commandTable i = some t) (he : s.executing i = true) (hh : s.env.hung = true) :
    microRun i n s = .next s := by
  induction n with
  | zero => rfl
  | succ n ih => rw [microRun_succ (exec_hung ht he hh), ih]

/-- Settles O16: the call is recorded in the first step, and no step follows it. -/
theorem hangStops : Obligations.HangStops := by
  intro s i t l act n ht hl hr ha hact hans
  have ⟨busy, cmd, _, _⟩ := hr
  obtain ⟨ev, hev⟩ : ∃ ev, callEvent s act .hang = some ev := by
    rcases hact with rfl | rfl | ⟨a, p, rfl⟩ <;> exact ⟨_, rfl⟩
  have call : exec i s = .next (s.takeAnswer ev).hang := by rw [exec_perform ht hl hr ha, perform_hang hev hans]
  have rest : microRun i n (s.takeAnswer ev).hang = .next (s.takeAnswer ev).hang :=
    microRun_hung ht (executing_iff.2 ⟨busy, cmd⟩) rfl
  exact ⟨_, ev, (microRun_succ call).trans rest, rfl⟩

/-! ### A refused command -/

/-- Settles O17: the command's own checks fail in the order of R222's table. -/
theorem refusedByFirstFailingCheck : Obligations.RefusedByFirstFailingCheck := by
  intro s i r hi he hf
  rw [exec_issued hi he, firstRefusal_ownChecks hi, hf]
  rfl

end Sys2Proof.Machine
end

section
/-! SUPPORT. Every step but an external device reset keeps the bank selected that the next bank-relative transfer of a
fixed sequence is meant for (70_reset_and_hazards.md R244). -/

namespace Sys2Proof.Machine

open Sys2Proof.Config

variable {s u w : State} {i : Instr} {l m : Label} {act : Action} {a b : Byte} {p : List Byte}

/-! ### The bank a label needs -/

/-- The bank a label needs depends on `CONFIG_BANK` and `ACTIVE` alone. -/
theorem bankNeeded_congr (hp : w.params = s.params) (ha : w.ctrl.active = s.ctrl.active) :
    bankNeeded w m = bankNeeded s m := by
  cases m <;> simp only [bankNeeded, activeByte, hp, ha]

/-- Whether a label needs a bank does not depend on the state. -/
theorem bankNeeded_of_bankNeeded (s : State) (h : bankNeeded w m = some b) : ∃ c, bankNeeded s m = some c := by
  cases m <;> cases h <;> exact ⟨_, rfl⟩

/-- A bank-relative transfer directly follows the select of its bank (R244). -/
theorem select_of_bankNeeded (hn : nextLabel i l = some m) (hb : bankNeeded s m = some b) :
    labelAction s l = some (.send (selectBytes s.params b)) := by
  cases l with
  | C1 | S1 | S4 | S6 | S8 | S10 | S12 | S14 | U2 | U4 => cases hn; cases hb; rfl
  | O1 | O2 | S5 | S11 | S15 | S16 | I1 | U6 | K4 =>
    simp only [nextLabel] at hn
    split at hn <;> cases hn
    cases hb
  | _ => cases hn <;> cases hb

/-- No sequence starts with a bank-relative transfer. -/
theorem bankNeeded_first (h : firstStep i = some l) : bankNeeded s l = none := by
  cases i <;> cases h <;> rfl

/-- An error ends the sequence (R215). -/
@[simp] theorem State.raiseTransfer_seqPc : (s.raiseTransfer l).ctrl.seqPc = none := by
  unfold State.raiseTransfer; split <;> rfl

namespace BankSelected

/-! ### The invariant along the operations -/

theorem of_eq (h : BankSelected s) (hl : w.ctrl.seqPc = s.ctrl.seqPc) (ha : w.ctrl.active = s.ctrl.active)
    (hd : w.dev.banksel = s.dev.banksel) (hp : w.params = s.params) : BankSelected w := fun l b hs hb =>
  hd.trans (h l b (hl ▸ hs) (bankNeeded_congr hp ha ▸ hb))

theorem of_sameButInputs (h : BankSelected s) (hs : SameButInputs s u) : BankSelected u :=
  h.of_eq (by rw [hs.ctrl]) (by rw [hs.ctrl]) (by rw [hs.dev]) hs.params

/-- Outside every sequence no transfer is next. -/
theorem of_no_label (h : w.ctrl.seqPc = none) : BankSelected w := fun _ _ hl => nomatch h.symm.trans hl

/-- A completed transfer goes on to a bank-relative one only where it selected that one's bank. -/
theorem stored {ev : BusEvent} (ha : labelAction s l = some (.xfer a p)) :
    BankSelected (((storeTransfer a (p.map some) (s.takeAnswer ev)).settleAfter l).goto (nextLabel i l)) := by
  intro m b hm hb
  rw [State.goto_seqPc] at hm
  rw [bankNeeded_congr (s := s) (by simp) (by simp)] at hb
  have select := select_of_bankNeeded hm hb
  rw [ha] at select
  cases select
  simp [selectBytes, storeTransfer]

/-- An action that is no transfer is followed by no bank-relative one. -/
theorem goto (ha : labelAction s l = some act) (hx : ∀ a p, act ≠ .xfer a p) :
    BankSelected (u.goto (nextLabel i l)) := by
  intro m b hm hb
  rw [State.goto_seqPc] at hm
  obtain ⟨c, hc⟩ := bankNeeded_of_bankNeeded s hb
  exact absurd (Option.some.inj (ha.symm.trans (select_of_bankNeeded hm hc))) (hx _ _)

/-! ### One step of the machine -/

/-- A micro-step keeps the invariant, whatever the transport answers. -/
theorem performed (h : BankSelected s) (ha : labelAction s l = some act)
    (hp : Performed l act (nextLabel i l) s w) : BankSelected w := by
  cases hp with
  | hang => exact h.of_eq rfl rfl rfl rfl
  | stored hact => exact .stored (hact ▸ ha)
  | opened hact | bound hact => exact .goto ha (by simp [hact])
  | localStep hu => exact .goto ha fun a p hact => by subst hact; cases hu
  | failed => exact .of_no_label State.raiseTransfer_seqPc
  | openFailed | bindFailed | finish => exact .of_no_label rfl

/-- An accepted command enters its sequence at the first label, or has none (R94). -/
theorem acceptedBy (h : BankSelected s) : BankSelected (s.acceptedBy i) := by
  cases hf : firstStep i with
  | some l =>
    rw [acceptedBy_of_firstStep hf]
    intro m b hm hb
    cases hm
    rw [bankNeeded_first hf] at hb
    cases hb
  | none => cases i <;> first | (cases hf; done) | exact h.of_eq rfl rfl rfl rfl

/-- The host's command keeps the invariant: it is refused, or accepted. -/
theorem issued (h : BankSelected s) (hi : isHostCommand i = true) (hb : s.ctrl.phase ≠ .busy)
    (hx : exec i s = .next w) : BankSelected w := by
  rcases exec_issued_next hi (not_executing hb) hx with ⟨r, rfl⟩ | ⟨-, rfl⟩
  · exact h.of_eq rfl rfl rfl rfl
  · exact h.acceptedBy

/-- The command in `CMD` keeps the invariant: its call still hangs, or it performs a micro-step. -/
theorem continued (h : BankSelected s) (hc : ControlConsistent s) (hb : s.ctrl.phase = .busy)
    (hi : s.ctrl.cmd = some i) (hx : exec i s = .next w) : BankSelected w := by
  obtain ⟨t, ht⟩ := hc.table_of_busy hb hi
  rcases exec_executing_next ht (executing_iff.2 ⟨hb, hi⟩) hx with ⟨-, rfl⟩ | ⟨-, l, nxt, act, -, hn, ha, hp⟩
  · exact h
  · rw [table_after ht (Table.after_mem hn), Option.some.injEq] at hn
    exact h.performed ha (hn ▸ hp)

end BankSelected

/-- Settles O55, over the ways a step can answer a next state. -/
theorem bankSelectedKept : Obligations.BankSelectedKept := by
  intro s w hc h hreset hstep
  cases (step_next hstep).2 with
  | blockReset => exact .of_no_label rfl
  | deviceReset hs => exact absurd hs (hreset _)
  | quiet hs => exact h.of_sameButInputs hs
  | refused hs => exact (h.of_sameButInputs hs).of_eq rfl rfl rfl rfl
  | executed hs hi hb _ hx => exact (h.of_sameButInputs hs).issued hi (hs.ctrl ▸ hb) hx
  | continued hs hb hi hx =>
    exact (h.of_sameButInputs hs).continued (hc.of_eq hs.ctrl hs.params hs.hung) (hs.ctrl ▸ hb) (hs.ctrl ▸ hi) hx

end Sys2Proof.Machine
end
